-- ==== Sys2Proof/Word.lean ====
section
/-! DEFINITION. The two word types of the core (00_scope.md R4, R6): a byte is 8 bits, a word is 16 bits,
bit 0 the least significant. Their arithmetic wraps, as every register does (10_state.md R27). -/

namespace Sys2Proof

/-- Eight bits: A, X, Y, S, P and a memory cell. -/
abbrev Byte := BitVec 8

/-- Sixteen bits: PC and every address. -/
abbrev Word := BitVec 16

end Sys2Proof
end

