-- ==== Sys2Proof/Syntax.lean ====
section
/-! DEFINITION. The instruction set as syntax: one constructor of `Instr` for each of the 151 rows of
spec/opcode_table.json (30_encoding.md R107), with the operand bytes the row has, and the two fields of
R107's table a row gives, its mnemonic and its addressing mode. -/

namespace Sys2Proof

/-- The 56 mnemonics (30_encoding.md R107). -/
inductive Mnemonic where
  | adc | sbc
  | lda | ldx | ldy | sta | stx | sty | tax | tay | txa | tya | tsx | txs
  | and | ora | eor | bit | inc | dec | inx | iny | dex | dey
  | asl | lsr | rol | ror
  | bcc | bcs | beq | bne | bmi | bpl | bvc | bvs | jmp
  | pha | php | pla | plp | jsr | rts | brk | rti
  | cmp | cpx | cpy
  | clc | sec | cli | sei | cld | sed | clv | nop
  deriving DecidableEq, Repr

/-- The 13 addressing modes (30_encoding.md R92). -/
inductive Mode where
  | implied | accumulator | immediate
  | zeroPage | zeroPageX | zeroPageY
  | absolute | absoluteX | absoluteY
  | indirect | indexedIndirectX | indirectIndexedY | relative
  deriving DecidableEq, Repr

/-- The nine modes whose resolver gives both a byte `val` and an address `ea` (30_encoding.md R95 to
R101, R103, R104), with the operand bytes that follow the opcode; a two-byte operand is one word, its
first byte the low one (20_memory.md R64). -/
inductive DataOperand where
  | immediate (v : Byte)
  | zeroPage (z : Byte)
  | zeroPageX (z : Byte)
  | zeroPageY (z : Byte)
  | absolute (w : Word)
  | absoluteX (w : Word)
  | absoluteY (w : Word)
  | indexedIndirectX (z : Byte)
  | indirectIndexedY (z : Byte)
  deriving DecidableEq, Repr

/-- An operand in any of the 13 modes (30_encoding.md R92). -/
inductive Operand where
  | implied
  | accumulator
  | data (d : DataOperand)
  | indirect (ptr : Word)
  | relative (d : Byte)
  deriving DecidableEq, Repr

/-- The mode a data operand is written in. -/
def DataOperand.mode : DataOperand → Mode
  | .immediate _ => .immediate
  | .zeroPage _ => .zeroPage
  | .zeroPageX _ => .zeroPageX
  | .zeroPageY _ => .zeroPageY
  | .absolute _ => .absolute
  | .absoluteX _ => .absoluteX
  | .absoluteY _ => .absoluteY
  | .indexedIndirectX _ => .indexedIndirectX
  | .indirectIndexedY _ => .indirectIndexedY

/-- The mode an operand is written in. -/
def Operand.mode : Operand → Mode
  | .implied => .implied
  | .accumulator => .accumulator
  | .data d => d.mode
  | .indirect _ => .indirect
  | .relative _ => .relative

/-- The instructions: one constructor per row of the opcode table (30_encoding.md R107), named by its
mnemonic and its mode. -/
inductive Instr where
  | adcImm (v : Byte)
  | adcZp (z : Byte)
  | adcZpx (z : Byte)
  | adcAbs (w : Word)
  | adcAbx (w : Word)
  | adcAby (w : Word)
  | adcIzx (z : Byte)
  | adcIzy (z : Byte)
  | sbcImm (v : Byte)
  | sbcZp (z : Byte)
  | sbcZpx (z : Byte)
  | sbcAbs (w : Word)
  | sbcAbx (w : Word)
  | sbcAby (w : Word)
  | sbcIzx (z : Byte)
  | sbcIzy (z : Byte)
  | ldaImm (v : Byte)
  | ldaZp (z : Byte)
  | ldaZpx (z : Byte)
  | ldaAbs (w : Word)
  | ldaAbx (w : Word)
  | ldaAby (w : Word)
  | ldaIzx (z : Byte)
  | ldaIzy (z : Byte)
  | ldxImm (v : Byte)
  | ldxZp (z : Byte)
  | ldxZpy (z : Byte)
  | ldxAbs (w : Word)
  | ldxAby (w : Word)
  | ldyImm (v : Byte)
  | ldyZp (z : Byte)
  | ldyZpx (z : Byte)
  | ldyAbs (w : Word)
  | ldyAbx (w : Word)
  | staZp (z : Byte)
  | staZpx (z : Byte)
  | staAbs (w : Word)
  | staAbx (w : Word)
  | staAby (w : Word)
  | staIzx (z : Byte)
  | staIzy (z : Byte)
  | stxZp (z : Byte)
  | stxZpy (z : Byte)
  | stxAbs (w : Word)
  | styZp (z : Byte)
  | styZpx (z : Byte)
  | styAbs (w : Word)
  | tax
  | tay
  | txa
  | tya
  | tsx
  | txs
  | andImm (v : Byte)
  | andZp (z : Byte)
  | andZpx (z : Byte)
  | andAbs (w : Word)
  | andAbx (w : Word)
  | andAby (w : Word)
  | andIzx (z : Byte)
  | andIzy (z : Byte)
  | oraImm (v : Byte)
  | oraZp (z : Byte)
  | oraZpx (z : Byte)
  | oraAbs (w : Word)
  | oraAbx (w : Word)
  | oraAby (w : Word)
  | oraIzx (z : Byte)
  | oraIzy (z : Byte)
  | eorImm (v : Byte)
  | eorZp (z : Byte)
  | eorZpx (z : Byte)
  | eorAbs (w : Word)
  | eorAbx (w : Word)
  | eorAby (w : Word)
  | eorIzx (z : Byte)
  | eorIzy (z : Byte)
  | bitZp (z : Byte)
  | bitAbs (w : Word)
  | incZp (z : Byte)
  | incZpx (z : Byte)
  | incAbs (w : Word)
  | incAbx (w : Word)
  | decZp (z : Byte)
  | decZpx (z : Byte)
  | decAbs (w : Word)
  | decAbx (w : Word)
  | inx
  | iny
  | dex
  | dey
  | aslAcc
  | aslZp (z : Byte)
  | aslZpx (z : Byte)
  | aslAbs (w : Word)
  | aslAbx (w : Word)
  | lsrAcc
  | lsrZp (z : Byte)
  | lsrZpx (z : Byte)
  | lsrAbs (w : Word)
  | lsrAbx (w : Word)
  | rolAcc
  | rolZp (z : Byte)
  | rolZpx (z : Byte)
  | rolAbs (w : Word)
  | rolAbx (w : Word)
  | rorAcc
  | rorZp (z : Byte)
  | rorZpx (z : Byte)
  | rorAbs (w : Word)
  | rorAbx (w : Word)
  | bcc (d : Byte)
  | bcs (d : Byte)
  | beq (d : Byte)
  | bne (d : Byte)
  | bmi (d : Byte)
  | bpl (d : Byte)
  | bvc (d : Byte)
  | bvs (d : Byte)
  | jmpAbs (w : Word)
  | jmpInd (w : Word)
  | pha
  | php
  | pla
  | plp
  | jsr (w : Word)
  | rts
  | brk
  | rti
  | cmpImm (v : Byte)
  | cmpZp (z : Byte)
  | cmpZpx (z : Byte)
  | cmpAbs (w : Word)
  | cmpAbx (w : Word)
  | cmpAby (w : Word)
  | cmpIzx (z : Byte)
  | cmpIzy (z : Byte)
  | cpxImm (v : Byte)
  | cpxZp (z : Byte)
  | cpxAbs (w : Word)
  | cpyImm (v : Byte)
  | cpyZp (z : Byte)
  | cpyAbs (w : Word)
  | clc
  | sec
  | cli
  | sei
  | cld
  | sed
  | clv
  | nop
  deriving DecidableEq, Repr

/-- The mnemonic of an instruction's row. -/
def Instr.mnemonic : Instr → Mnemonic
  | .adcImm _ => .adc
  | .adcZp _ => .adc
  | .adcZpx _ => .adc
  | .adcAbs _ => .adc
  | .adcAbx _ => .adc
  | .adcAby _ => .adc
  | .adcIzx _ => .adc
  | .adcIzy _ => .adc
  | .sbcImm _ => .sbc
  | .sbcZp _ => .sbc
  | .sbcZpx _ => .sbc
  | .sbcAbs _ => .sbc
  | .sbcAbx _ => .sbc
  | .sbcAby _ => .sbc
  | .sbcIzx _ => .sbc
  | .sbcIzy _ => .sbc
  | .ldaImm _ => .lda
  | .ldaZp _ => .lda
  | .ldaZpx _ => .lda
  | .ldaAbs _ => .lda
  | .ldaAbx _ => .lda
  | .ldaAby _ => .lda
  | .ldaIzx _ => .lda
  | .ldaIzy _ => .lda
  | .ldxImm _ => .ldx
  | .ldxZp _ => .ldx
  | .ldxZpy _ => .ldx
  | .ldxAbs _ => .ldx
  | .ldxAby _ => .ldx
  | .ldyImm _ => .ldy
  | .ldyZp _ => .ldy
  | .ldyZpx _ => .ldy
  | .ldyAbs _ => .ldy
  | .ldyAbx _ => .ldy
  | .staZp _ => .sta
  | .staZpx _ => .sta
  | .staAbs _ => .sta
  | .staAbx _ => .sta
  | .staAby _ => .sta
  | .staIzx _ => .sta
  | .staIzy _ => .sta
  | .stxZp _ => .stx
  | .stxZpy _ => .stx
  | .stxAbs _ => .stx
  | .styZp _ => .sty
  | .styZpx _ => .sty
  | .styAbs _ => .sty
  | .tax => .tax
  | .tay => .tay
  | .txa => .txa
  | .tya => .tya
  | .tsx => .tsx
  | .txs => .txs
  | .andImm _ => .and
  | .andZp _ => .and
  | .andZpx _ => .and
  | .andAbs _ => .and
  | .andAbx _ => .and
  | .andAby _ => .and
  | .andIzx _ => .and
  | .andIzy _ => .and
  | .oraImm _ => .ora
  | .oraZp _ => .ora
  | .oraZpx _ => .ora
  | .oraAbs _ => .ora
  | .oraAbx _ => .ora
  | .oraAby _ => .ora
  | .oraIzx _ => .ora
  | .oraIzy _ => .ora
  | .eorImm _ => .eor
  | .eorZp _ => .eor
  | .eorZpx _ => .eor
  | .eorAbs _ => .eor
  | .eorAbx _ => .eor
  | .eorAby _ => .eor
  | .eorIzx _ => .eor
  | .eorIzy _ => .eor
  | .bitZp _ => .bit
  | .bitAbs _ => .bit
  | .incZp _ => .inc
  | .incZpx _ => .inc
  | .incAbs _ => .inc
  | .incAbx _ => .inc
  | .decZp _ => .dec
  | .decZpx _ => .dec
  | .decAbs _ => .dec
  | .decAbx _ => .dec
  | .inx => .inx
  | .iny => .iny
  | .dex => .dex
  | .dey => .dey
  | .aslAcc => .asl
  | .aslZp _ => .asl
  | .aslZpx _ => .asl
  | .aslAbs _ => .asl
  | .aslAbx _ => .asl
  | .lsrAcc => .lsr
  | .lsrZp _ => .lsr
  | .lsrZpx _ => .lsr
  | .lsrAbs _ => .lsr
  | .lsrAbx _ => .lsr
  | .rolAcc => .rol
  | .rolZp _ => .rol
  | .rolZpx _ => .rol
  | .rolAbs _ => .rol
  | .rolAbx _ => .rol
  | .rorAcc => .ror
  | .rorZp _ => .ror
  | .rorZpx _ => .ror
  | .rorAbs _ => .ror
  | .rorAbx _ => .ror
  | .bcc _ => .bcc
  | .bcs _ => .bcs
  | .beq _ => .beq
  | .bne _ => .bne
  | .bmi _ => .bmi
  | .bpl _ => .bpl
  | .bvc _ => .bvc
  | .bvs _ => .bvs
  | .jmpAbs _ => .jmp
  | .jmpInd _ => .jmp
  | .pha => .pha
  | .php => .php
  | .pla => .pla
  | .plp => .plp
  | .jsr _ => .jsr
  | .rts => .rts
  | .brk => .brk
  | .rti => .rti
  | .cmpImm _ => .cmp
  | .cmpZp _ => .cmp
  | .cmpZpx _ => .cmp
  | .cmpAbs _ => .cmp
  | .cmpAbx _ => .cmp
  | .cmpAby _ => .cmp
  | .cmpIzx _ => .cmp
  | .cmpIzy _ => .cmp
  | .cpxImm _ => .cpx
  | .cpxZp _ => .cpx
  | .cpxAbs _ => .cpx
  | .cpyImm _ => .cpy
  | .cpyZp _ => .cpy
  | .cpyAbs _ => .cpy
  | .clc => .clc
  | .sec => .sec
  | .cli => .cli
  | .sei => .sei
  | .cld => .cld
  | .sed => .sed
  | .clv => .clv
  | .nop => .nop

/-- The operand of an instruction, in the mode of its row. -/
def Instr.operand : Instr → Operand
  | .adcImm v => .data (.immediate v)
  | .adcZp z => .data (.zeroPage z)
  | .adcZpx z => .data (.zeroPageX z)
  | .adcAbs w => .data (.absolute w)
  | .adcAbx w => .data (.absoluteX w)
  | .adcAby w => .data (.absoluteY w)
  | .adcIzx z => .data (.indexedIndirectX z)
  | .adcIzy z => .data (.indirectIndexedY z)
  | .sbcImm v => .data (.immediate v)
  | .sbcZp z => .data (.zeroPage z)
  | .sbcZpx z => .data (.zeroPageX z)
  | .sbcAbs w => .data (.absolute w)
  | .sbcAbx w => .data (.absoluteX w)
  | .sbcAby w => .data (.absoluteY w)
  | .sbcIzx z => .data (.indexedIndirectX z)
  | .sbcIzy z => .data (.indirectIndexedY z)
  | .ldaImm v => .data (.immediate v)
  | .ldaZp z => .data (.zeroPage z)
  | .ldaZpx z => .data (.zeroPageX z)
  | .ldaAbs w => .data (.absolute w)
  | .ldaAbx w => .data (.absoluteX w)
  | .ldaAby w => .data (.absoluteY w)
  | .ldaIzx z => .data (.indexedIndirectX z)
  | .ldaIzy z => .data (.indirectIndexedY z)
  | .ldxImm v => .data (.immediate v)
  | .ldxZp z => .data (.zeroPage z)
  | .ldxZpy z => .data (.zeroPageY z)
  | .ldxAbs w => .data (.absolute w)
  | .ldxAby w => .data (.absoluteY w)
  | .ldyImm v => .data (.immediate v)
  | .ldyZp z => .data (.zeroPage z)
  | .ldyZpx z => .data (.zeroPageX z)
  | .ldyAbs w => .data (.absolute w)
  | .ldyAbx w => .data (.absoluteX w)
  | .staZp z => .data (.zeroPage z)
  | .staZpx z => .data (.zeroPageX z)
  | .staAbs w => .data (.absolute w)
  | .staAbx w => .data (.absoluteX w)
  | .staAby w => .data (.absoluteY w)
  | .staIzx z => .data (.indexedIndirectX z)
  | .staIzy z => .data (.indirectIndexedY z)
  | .stxZp z => .data (.zeroPage z)
  | .stxZpy z => .data (.zeroPageY z)
  | .stxAbs w => .data (.absolute w)
  | .styZp z => .data (.zeroPage z)
  | .styZpx z => .data (.zeroPageX z)
  | .styAbs w => .data (.absolute w)
  | .tax => .implied
  | .tay => .implied
  | .txa => .implied
  | .tya => .implied
  | .tsx => .implied
  | .txs => .implied
  | .andImm v => .data (.immediate v)
  | .andZp z => .data (.zeroPage z)
  | .andZpx z => .data (.zeroPageX z)
  | .andAbs w => .data (.absolute w)
  | .andAbx w => .data (.absoluteX w)
  | .andAby w => .data (.absoluteY w)
  | .andIzx z => .data (.indexedIndirectX z)
  | .andIzy z => .data (.indirectIndexedY z)
  | .oraImm v => .data (.immediate v)
  | .oraZp z => .data (.zeroPage z)
  | .oraZpx z => .data (.zeroPageX z)
  | .oraAbs w => .data (.absolute w)
  | .oraAbx w => .data (.absoluteX w)
  | .oraAby w => .data (.absoluteY w)
  | .oraIzx z => .data (.indexedIndirectX z)
  | .oraIzy z => .data (.indirectIndexedY z)
  | .eorImm v => .data (.immediate v)
  | .eorZp z => .data (.zeroPage z)
  | .eorZpx z => .data (.zeroPageX z)
  | .eorAbs w => .data (.absolute w)
  | .eorAbx w => .data (.absoluteX w)
  | .eorAby w => .data (.absoluteY w)
  | .eorIzx z => .data (.indexedIndirectX z)
  | .eorIzy z => .data (.indirectIndexedY z)
  | .bitZp z => .data (.zeroPage z)
  | .bitAbs w => .data (.absolute w)
  | .incZp z => .data (.zeroPage z)
  | .incZpx z => .data (.zeroPageX z)
  | .incAbs w => .data (.absolute w)
  | .incAbx w => .data (.absoluteX w)
  | .decZp z => .data (.zeroPage z)
  | .decZpx z => .data (.zeroPageX z)
  | .decAbs w => .data (.absolute w)
  | .decAbx w => .data (.absoluteX w)
  | .inx => .implied
  | .iny => .implied
  | .dex => .implied
  | .dey => .implied
  | .aslAcc => .accumulator
  | .aslZp z => .data (.zeroPage z)
  | .aslZpx z => .data (.zeroPageX z)
  | .aslAbs w => .data (.absolute w)
  | .aslAbx w => .data (.absoluteX w)
  | .lsrAcc => .accumulator
  | .lsrZp z => .data (.zeroPage z)
  | .lsrZpx z => .data (.zeroPageX z)
  | .lsrAbs w => .data (.absolute w)
  | .lsrAbx w => .data (.absoluteX w)
  | .rolAcc => .accumulator
  | .rolZp z => .data (.zeroPage z)
  | .rolZpx z => .data (.zeroPageX z)
  | .rolAbs w => .data (.absolute w)
  | .rolAbx w => .data (.absoluteX w)
  | .rorAcc => .accumulator
  | .rorZp z => .data (.zeroPage z)
  | .rorZpx z => .data (.zeroPageX z)
  | .rorAbs w => .data (.absolute w)
  | .rorAbx w => .data (.absoluteX w)
  | .bcc d => .relative d
  | .bcs d => .relative d
  | .beq d => .relative d
  | .bne d => .relative d
  | .bmi d => .relative d
  | .bpl d => .relative d
  | .bvc d => .relative d
  | .bvs d => .relative d
  | .jmpAbs w => .data (.absolute w)
  | .jmpInd w => .indirect w
  | .pha => .implied
  | .php => .implied
  | .pla => .implied
  | .plp => .implied
  | .jsr w => .data (.absolute w)
  | .rts => .implied
  | .brk => .implied
  | .rti => .implied
  | .cmpImm v => .data (.immediate v)
  | .cmpZp z => .data (.zeroPage z)
  | .cmpZpx z => .data (.zeroPageX z)
  | .cmpAbs w => .data (.absolute w)
  | .cmpAbx w => .data (.absoluteX w)
  | .cmpAby w => .data (.absoluteY w)
  | .cmpIzx z => .data (.indexedIndirectX z)
  | .cmpIzy z => .data (.indirectIndexedY z)
  | .cpxImm v => .data (.immediate v)
  | .cpxZp z => .data (.zeroPage z)
  | .cpxAbs w => .data (.absolute w)
  | .cpyImm v => .data (.immediate v)
  | .cpyZp z => .data (.zeroPage z)
  | .cpyAbs w => .data (.absolute w)
  | .clc => .implied
  | .sec => .implied
  | .cli => .implied
  | .sei => .implied
  | .cld => .implied
  | .sed => .implied
  | .clv => .implied
  | .nop => .implied

/-- The addressing mode of an instruction's row. -/
def Instr.mode (i : Instr) : Mode := i.operand.mode

end Sys2Proof
end

