-- ==== Sys2Proof/WellFormed.lean ====
section
/-! DEFINITION. Well-formedness: a mnemonic may be written only in the modes for which the table of
30_encoding.md R107 gives it an opcode. Operand bytes carry no check: "Operand bytes have no reserved
values" (R109). The constructors of `Instr` are the table's rows, so every `Instr` passes; the check itself
refuses every other pair of a mnemonic and an operand. -/

namespace Sys2Proof

/-- The modes each mnemonic has an opcode in (30_encoding.md R107, the table by mnemonic). -/
def Mnemonic.modes : Mnemonic → List Mode
  | .adc => [.immediate, .zeroPage, .zeroPageX, .absolute, .absoluteX, .absoluteY, .indexedIndirectX, .indirectIndexedY]
  | .sbc => [.immediate, .zeroPage, .zeroPageX, .absolute, .absoluteX, .absoluteY, .indexedIndirectX, .indirectIndexedY]
  | .lda => [.immediate, .zeroPage, .zeroPageX, .absolute, .absoluteX, .absoluteY, .indexedIndirectX, .indirectIndexedY]
  | .ldx => [.immediate, .zeroPage, .zeroPageY, .absolute, .absoluteY]
  | .ldy => [.immediate, .zeroPage, .zeroPageX, .absolute, .absoluteX]
  | .sta => [.zeroPage, .zeroPageX, .absolute, .absoluteX, .absoluteY, .indexedIndirectX, .indirectIndexedY]
  | .stx => [.zeroPage, .zeroPageY, .absolute]
  | .sty => [.zeroPage, .zeroPageX, .absolute]
  | .tax => [.implied]
  | .tay => [.implied]
  | .txa => [.implied]
  | .tya => [.implied]
  | .tsx => [.implied]
  | .txs => [.implied]
  | .and => [.immediate, .zeroPage, .zeroPageX, .absolute, .absoluteX, .absoluteY, .indexedIndirectX, .indirectIndexedY]
  | .ora => [.immediate, .zeroPage, .zeroPageX, .absolute, .absoluteX, .absoluteY, .indexedIndirectX, .indirectIndexedY]
  | .eor => [.immediate, .zeroPage, .zeroPageX, .absolute, .absoluteX, .absoluteY, .indexedIndirectX, .indirectIndexedY]
  | .bit => [.zeroPage, .absolute]
  | .inc => [.zeroPage, .zeroPageX, .absolute, .absoluteX]
  | .dec => [.zeroPage, .zeroPageX, .absolute, .absoluteX]
  | .inx => [.implied]
  | .iny => [.implied]
  | .dex => [.implied]
  | .dey => [.implied]
  | .asl => [.accumulator, .zeroPage, .zeroPageX, .absolute, .absoluteX]
  | .lsr => [.accumulator, .zeroPage, .zeroPageX, .absolute, .absoluteX]
  | .rol => [.accumulator, .zeroPage, .zeroPageX, .absolute, .absoluteX]
  | .ror => [.accumulator, .zeroPage, .zeroPageX, .absolute, .absoluteX]
  | .bcc => [.relative]
  | .bcs => [.relative]
  | .beq => [.relative]
  | .bne => [.relative]
  | .bmi => [.relative]
  | .bpl => [.relative]
  | .bvc => [.relative]
  | .bvs => [.relative]
  | .jmp => [.absolute, .indirect]
  | .pha => [.implied]
  | .php => [.implied]
  | .pla => [.implied]
  | .plp => [.implied]
  | .jsr => [.absolute]
  | .rts => [.implied]
  | .brk => [.implied]
  | .rti => [.implied]
  | .cmp => [.immediate, .zeroPage, .zeroPageX, .absolute, .absoluteX, .absoluteY, .indexedIndirectX, .indirectIndexedY]
  | .cpx => [.immediate, .zeroPage, .absolute]
  | .cpy => [.immediate, .zeroPage, .absolute]
  | .clc => [.implied]
  | .sec => [.implied]
  | .cli => [.implied]
  | .sei => [.implied]
  | .cld => [.implied]
  | .sed => [.implied]
  | .clv => [.implied]
  | .nop => [.implied]

/-- The pair of a mnemonic and an operand has an opcode (30_encoding.md R107). -/
def legalPair (m : Mnemonic) (o : Operand) : Bool := m.modes.contains o.mode

/-- An instruction is well formed when its mnemonic has an opcode in its mode. -/
def Instr.wellFormed (i : Instr) : Bool := legalPair i.mnemonic i.operand

end Sys2Proof
end

