-- ==== Sys2Proof/Decode.lean ====
section
/-! DEFINITION. Bytes to instructions and back. The decoder reads the opcode matrix of 30_encoding.md R107
row by row (row: high nibble of the opcode byte, column: low nibble); the encoder writes the table by
mnemonic of the same rule. -/

namespace Sys2Proof

/-- The word `hi : lo` (00_scope.md R6). -/
def joinBytes (hi lo : Byte) : Word := hi ++ lo

/-- Bits 7 to 0 of a word. -/
def loByte (w : Word) : Byte := w.extractLsb' 0 8

/-- Bits 15 to 8 of a word. -/
def hiByte (w : Word) : Byte := w.extractLsb' 8 8

/-- A byte widened to a word with zeros (00_scope.md R6, `zext_16`). -/
def zext16 (b : Byte) : Word := b.setWidth 16

/-- A byte widened to a word with its sign (00_scope.md R6, `sext_16`). -/
def sext16 (b : Byte) : Word := b.signExtend 16

/-- The fixed byte length of each addressing mode (30_encoding.md R92). -/
def Mode.length : Mode → Nat
  | .implied | .accumulator => 1
  | .immediate | .zeroPage | .zeroPageX | .zeroPageY => 2
  | .indexedIndirectX | .indirectIndexedY | .relative => 2
  | .absolute | .absoluteX | .absoluteY | .indirect => 3

/-- The bytes an instruction takes, its opcode byte included (30_encoding.md R90). -/
def Instr.length (i : Instr) : Nat := i.mode.length

/-- Row 0x of the matrix of 30_encoding.md R107: `col` is the opcode's low nibble, `b1` and `b2` the two
bytes after it. -/
def decodeRow0 (col : Nat) (b1 b2 : Byte) : Option Instr :=
  match col with
  | 0x0 => some .brk
  | 0x1 => some (.oraIzx b1)
  | 0x5 => some (.oraZp b1)
  | 0x6 => some (.aslZp b1)
  | 0x8 => some .php
  | 0x9 => some (.oraImm b1)
  | 0xA => some .aslAcc
  | 0xD => some (.oraAbs (joinBytes b2 b1))
  | 0xE => some (.aslAbs (joinBytes b2 b1))
  | _ => none

/-- Row 1x of the matrix of 30_encoding.md R107: `col` is the opcode's low nibble, `b1` and `b2` the two
bytes after it. -/
def decodeRow1 (col : Nat) (b1 b2 : Byte) : Option Instr :=
  match col with
  | 0x0 => some (.bpl b1)
  | 0x1 => some (.oraIzy b1)
  | 0x5 => some (.oraZpx b1)
  | 0x6 => some (.aslZpx b1)
  | 0x8 => some .clc
  | 0x9 => some (.oraAby (joinBytes b2 b1))
  | 0xD => some (.oraAbx (joinBytes b2 b1))
  | 0xE => some (.aslAbx (joinBytes b2 b1))
  | _ => none

/-- Row 2x of the matrix of 30_encoding.md R107: `col` is the opcode's low nibble, `b1` and `b2` the two
bytes after it. -/
def decodeRow2 (col : Nat) (b1 b2 : Byte) : Option Instr :=
  match col with
  | 0x0 => some (.jsr (joinBytes b2 b1))
  | 0x1 => some (.andIzx b1)
  | 0x4 => some (.bitZp b1)
  | 0x5 => some (.andZp b1)
  | 0x6 => some (.rolZp b1)
  | 0x8 => some .plp
  | 0x9 => some (.andImm b1)
  | 0xA => some .rolAcc
  | 0xC => some (.bitAbs (joinBytes b2 b1))
  | 0xD => some (.andAbs (joinBytes b2 b1))
  | 0xE => some (.rolAbs (joinBytes b2 b1))
  | _ => none

/-- Row 3x of the matrix of 30_encoding.md R107: `col` is the opcode's low nibble, `b1` and `b2` the two
bytes after it. -/
def decodeRow3 (col : Nat) (b1 b2 : Byte) : Option Instr :=
  match col with
  | 0x0 => some (.bmi b1)
  | 0x1 => some (.andIzy b1)
  | 0x5 => some (.andZpx b1)
  | 0x6 => some (.rolZpx b1)
  | 0x8 => some .sec
  | 0x9 => some (.andAby (joinBytes b2 b1))
  | 0xD => some (.andAbx (joinBytes b2 b1))
  | 0xE => some (.rolAbx (joinBytes b2 b1))
  | _ => none

/-- Row 4x of the matrix of 30_encoding.md R107: `col` is the opcode's low nibble, `b1` and `b2` the two
bytes after it. -/
def decodeRow4 (col : Nat) (b1 b2 : Byte) : Option Instr :=
  match col with
  | 0x0 => some .rti
  | 0x1 => some (.eorIzx b1)
  | 0x5 => some (.eorZp b1)
  | 0x6 => some (.lsrZp b1)
  | 0x8 => some .pha
  | 0x9 => some (.eorImm b1)
  | 0xA => some .lsrAcc
  | 0xC => some (.jmpAbs (joinBytes b2 b1))
  | 0xD => some (.eorAbs (joinBytes b2 b1))
  | 0xE => some (.lsrAbs (joinBytes b2 b1))
  | _ => none

/-- Row 5x of the matrix of 30_encoding.md R107: `col` is the opcode's low nibble, `b1` and `b2` the two
bytes after it. -/
def decodeRow5 (col : Nat) (b1 b2 : Byte) : Option Instr :=
  match col with
  | 0x0 => some (.bvc b1)
  | 0x1 => some (.eorIzy b1)
  | 0x5 => some (.eorZpx b1)
  | 0x6 => some (.lsrZpx b1)
  | 0x8 => some .cli
  | 0x9 => some (.eorAby (joinBytes b2 b1))
  | 0xD => some (.eorAbx (joinBytes b2 b1))
  | 0xE => some (.lsrAbx (joinBytes b2 b1))
  | _ => none

/-- Row 6x of the matrix of 30_encoding.md R107: `col` is the opcode's low nibble, `b1` and `b2` the two
bytes after it. -/
def decodeRow6 (col : Nat) (b1 b2 : Byte) : Option Instr :=
  match col with
  | 0x0 => some .rts
  | 0x1 => some (.adcIzx b1)
  | 0x5 => some (.adcZp b1)
  | 0x6 => some (.rorZp b1)
  | 0x8 => some .pla
  | 0x9 => some (.adcImm b1)
  | 0xA => some .rorAcc
  | 0xC => some (.jmpInd (joinBytes b2 b1))
  | 0xD => some (.adcAbs (joinBytes b2 b1))
  | 0xE => some (.rorAbs (joinBytes b2 b1))
  | _ => none

/-- Row 7x of the matrix of 30_encoding.md R107: `col` is the opcode's low nibble, `b1` and `b2` the two
bytes after it. -/
def decodeRow7 (col : Nat) (b1 b2 : Byte) : Option Instr :=
  match col with
  | 0x0 => some (.bvs b1)
  | 0x1 => some (.adcIzy b1)
  | 0x5 => some (.adcZpx b1)
  | 0x6 => some (.rorZpx b1)
  | 0x8 => some .sei
  | 0x9 => some (.adcAby (joinBytes b2 b1))
  | 0xD => some (.adcAbx (joinBytes b2 b1))
  | 0xE => some (.rorAbx (joinBytes b2 b1))
  | _ => none

/-- Row 8x of the matrix of 30_encoding.md R107: `col` is the opcode's low nibble, `b1` and `b2` the two
bytes after it. -/
def decodeRow8 (col : Nat) (b1 b2 : Byte) : Option Instr :=
  match col with
  | 0x1 => some (.staIzx b1)
  | 0x4 => some (.styZp b1)
  | 0x5 => some (.staZp b1)
  | 0x6 => some (.stxZp b1)
  | 0x8 => some .dey
  | 0xA => some .txa
  | 0xC => some (.styAbs (joinBytes b2 b1))
  | 0xD => some (.staAbs (joinBytes b2 b1))
  | 0xE => some (.stxAbs (joinBytes b2 b1))
  | _ => none

/-- Row 9x of the matrix of 30_encoding.md R107: `col` is the opcode's low nibble, `b1` and `b2` the two
bytes after it. -/
def decodeRow9 (col : Nat) (b1 b2 : Byte) : Option Instr :=
  match col with
  | 0x0 => some (.bcc b1)
  | 0x1 => some (.staIzy b1)
  | 0x4 => some (.styZpx b1)
  | 0x5 => some (.staZpx b1)
  | 0x6 => some (.stxZpy b1)
  | 0x8 => some .tya
  | 0x9 => some (.staAby (joinBytes b2 b1))
  | 0xA => some .txs
  | 0xD => some (.staAbx (joinBytes b2 b1))
  | _ => none

/-- Row Ax of the matrix of 30_encoding.md R107: `col` is the opcode's low nibble, `b1` and `b2` the two
bytes after it. -/
def decodeRowA (col : Nat) (b1 b2 : Byte) : Option Instr :=
  match col with
  | 0x0 => some (.ldyImm b1)
  | 0x1 => some (.ldaIzx b1)
  | 0x2 => some (.ldxImm b1)
  | 0x4 => some (.ldyZp b1)
  | 0x5 => some (.ldaZp b1)
  | 0x6 => some (.ldxZp b1)
  | 0x8 => some .tay
  | 0x9 => some (.ldaImm b1)
  | 0xA => some .tax
  | 0xC => some (.ldyAbs (joinBytes b2 b1))
  | 0xD => some (.ldaAbs (joinBytes b2 b1))
  | 0xE => some (.ldxAbs (joinBytes b2 b1))
  | _ => none

/-- Row Bx of the matrix of 30_encoding.md R107: `col` is the opcode's low nibble, `b1` and `b2` the two
bytes after it. -/
def decodeRowB (col : Nat) (b1 b2 : Byte) : Option Instr :=
  match col with
  | 0x0 => some (.bcs b1)
  | 0x1 => some (.ldaIzy b1)
  | 0x4 => some (.ldyZpx b1)
  | 0x5 => some (.ldaZpx b1)
  | 0x6 => some (.ldxZpy b1)
  | 0x8 => some .clv
  | 0x9 => some (.ldaAby (joinBytes b2 b1))
  | 0xA => some .tsx
  | 0xC => some (.ldyAbx (joinBytes b2 b1))
  | 0xD => some (.ldaAbx (joinBytes b2 b1))
  | 0xE => some (.ldxAby (joinBytes b2 b1))
  | _ => none

/-- Row Cx of the matrix of 30_encoding.md R107: `col` is the opcode's low nibble, `b1` and `b2` the two
bytes after it. -/
def decodeRowC (col : Nat) (b1 b2 : Byte) : Option Instr :=
  match col with
  | 0x0 => some (.cpyImm b1)
  | 0x1 => some (.cmpIzx b1)
  | 0x4 => some (.cpyZp b1)
  | 0x5 => some (.cmpZp b1)
  | 0x6 => some (.decZp b1)
  | 0x8 => some .iny
  | 0x9 => some (.cmpImm b1)
  | 0xA => some .dex
  | 0xC => some (.cpyAbs (joinBytes b2 b1))
  | 0xD => some (.cmpAbs (joinBytes b2 b1))
  | 0xE => some (.decAbs (joinBytes b2 b1))
  | _ => none

/-- Row Dx of the matrix of 30_encoding.md R107: `col` is the opcode's low nibble, `b1` and `b2` the two
bytes after it. -/
def decodeRowD (col : Nat) (b1 b2 : Byte) : Option Instr :=
  match col with
  | 0x0 => some (.bne b1)
  | 0x1 => some (.cmpIzy b1)
  | 0x5 => some (.cmpZpx b1)
  | 0x6 => some (.decZpx b1)
  | 0x8 => some .cld
  | 0x9 => some (.cmpAby (joinBytes b2 b1))
  | 0xD => some (.cmpAbx (joinBytes b2 b1))
  | 0xE => some (.decAbx (joinBytes b2 b1))
  | _ => none

/-- Row Ex of the matrix of 30_encoding.md R107: `col` is the opcode's low nibble, `b1` and `b2` the two
bytes after it. -/
def decodeRowE (col : Nat) (b1 b2 : Byte) : Option Instr :=
  match col with
  | 0x0 => some (.cpxImm b1)
  | 0x1 => some (.sbcIzx b1)
  | 0x4 => some (.cpxZp b1)
  | 0x5 => some (.sbcZp b1)
  | 0x6 => some (.incZp b1)
  | 0x8 => some .inx
  | 0x9 => some (.sbcImm b1)
  | 0xA => some .nop
  | 0xC => some (.cpxAbs (joinBytes b2 b1))
  | 0xD => some (.sbcAbs (joinBytes b2 b1))
  | 0xE => some (.incAbs (joinBytes b2 b1))
  | _ => none

/-- Row Fx of the matrix of 30_encoding.md R107: `col` is the opcode's low nibble, `b1` and `b2` the two
bytes after it. -/
def decodeRowF (col : Nat) (b1 b2 : Byte) : Option Instr :=
  match col with
  | 0x0 => some (.beq b1)
  | 0x1 => some (.sbcIzy b1)
  | 0x5 => some (.sbcZpx b1)
  | 0x6 => some (.incZpx b1)
  | 0x8 => some .sed
  | 0x9 => some (.sbcAby (joinBytes b2 b1))
  | 0xD => some (.sbcAbx (joinBytes b2 b1))
  | 0xE => some (.incAbx (joinBytes b2 b1))
  | _ => none

/-- The instruction an opcode byte and the two bytes after it stand for; `none` for the 105 bytes with no
table entry (30_encoding.md R107, R108). A row shorter than three bytes leaves the later ones unread. -/
def decodeOpcode (op b1 b2 : Byte) : Option Instr :=
  let col := op.toNat % 16
  match op.toNat / 16 with
  | 0x0 => decodeRow0 col b1 b2
  | 0x1 => decodeRow1 col b1 b2
  | 0x2 => decodeRow2 col b1 b2
  | 0x3 => decodeRow3 col b1 b2
  | 0x4 => decodeRow4 col b1 b2
  | 0x5 => decodeRow5 col b1 b2
  | 0x6 => decodeRow6 col b1 b2
  | 0x7 => decodeRow7 col b1 b2
  | 0x8 => decodeRow8 col b1 b2
  | 0x9 => decodeRow9 col b1 b2
  | 0xA => decodeRowA col b1 b2
  | 0xB => decodeRowB col b1 b2
  | 0xC => decodeRowC col b1 b2
  | 0xD => decodeRowD col b1 b2
  | 0xE => decodeRowE col b1 b2
  | 0xF => decodeRowF col b1 b2
  | _ => none

/-- Why bytes are no instruction. -/
inductive DecodeError where
  /-- There is no byte to decode. -/
  | noBytes
  /-- The opcode byte has no table entry (30_encoding.md R108). -/
  | unimplementedOpcode (opcode : Byte)
  /-- The opcode byte has an entry, and fewer bytes follow it than its mode needs (30_encoding.md R90). -/
  | missingOperandBytes (opcode : Byte)
  deriving DecidableEq, Repr

/-- The decoder: the instruction at the front of a byte sequence with the bytes after it, or the reason
there is none. The length comes from the opcode byte alone (30_encoding.md R110). -/
def decode : List Byte → Except DecodeError (Instr × List Byte)
  | [] => .error .noBytes
  | op :: rest =>
    match decodeOpcode op (rest.getD 0 0) (rest.getD 1 0) with
    | none => .error (.unimplementedOpcode op)
    | some i =>
      if rest.length + 1 < i.length then .error (.missingOperandBytes op)
      else .ok (i, rest.drop (i.length - 1))

/-- The opcode byte of an instruction (30_encoding.md R107, the table by mnemonic). -/
def Instr.opcode : Instr → Byte
  | .adcImm _ => 0x69
  | .adcZp _ => 0x65
  | .adcZpx _ => 0x75
  | .adcAbs _ => 0x6D
  | .adcAbx _ => 0x7D
  | .adcAby _ => 0x79
  | .adcIzx _ => 0x61
  | .adcIzy _ => 0x71
  | .sbcImm _ => 0xE9
  | .sbcZp _ => 0xE5
  | .sbcZpx _ => 0xF5
  | .sbcAbs _ => 0xED
  | .sbcAbx _ => 0xFD
  | .sbcAby _ => 0xF9
  | .sbcIzx _ => 0xE1
  | .sbcIzy _ => 0xF1
  | .ldaImm _ => 0xA9
  | .ldaZp _ => 0xA5
  | .ldaZpx _ => 0xB5
  | .ldaAbs _ => 0xAD
  | .ldaAbx _ => 0xBD
  | .ldaAby _ => 0xB9
  | .ldaIzx _ => 0xA1
  | .ldaIzy _ => 0xB1
  | .ldxImm _ => 0xA2
  | .ldxZp _ => 0xA6
  | .ldxZpy _ => 0xB6
  | .ldxAbs _ => 0xAE
  | .ldxAby _ => 0xBE
  | .ldyImm _ => 0xA0
  | .ldyZp _ => 0xA4
  | .ldyZpx _ => 0xB4
  | .ldyAbs _ => 0xAC
  | .ldyAbx _ => 0xBC
  | .staZp _ => 0x85
  | .staZpx _ => 0x95
  | .staAbs _ => 0x8D
  | .staAbx _ => 0x9D
  | .staAby _ => 0x99
  | .staIzx _ => 0x81
  | .staIzy _ => 0x91
  | .stxZp _ => 0x86
  | .stxZpy _ => 0x96
  | .stxAbs _ => 0x8E
  | .styZp _ => 0x84
  | .styZpx _ => 0x94
  | .styAbs _ => 0x8C
  | .tax => 0xAA
  | .tay => 0xA8
  | .txa => 0x8A
  | .tya => 0x98
  | .tsx => 0xBA
  | .txs => 0x9A
  | .andImm _ => 0x29
  | .andZp _ => 0x25
  | .andZpx _ => 0x35
  | .andAbs _ => 0x2D
  | .andAbx _ => 0x3D
  | .andAby _ => 0x39
  | .andIzx _ => 0x21
  | .andIzy _ => 0x31
  | .oraImm _ => 0x09
  | .oraZp _ => 0x05
  | .oraZpx _ => 0x15
  | .oraAbs _ => 0x0D
  | .oraAbx _ => 0x1D
  | .oraAby _ => 0x19
  | .oraIzx _ => 0x01
  | .oraIzy _ => 0x11
  | .eorImm _ => 0x49
  | .eorZp _ => 0x45
  | .eorZpx _ => 0x55
  | .eorAbs _ => 0x4D
  | .eorAbx _ => 0x5D
  | .eorAby _ => 0x59
  | .eorIzx _ => 0x41
  | .eorIzy _ => 0x51
  | .bitZp _ => 0x24
  | .bitAbs _ => 0x2C
  | .incZp _ => 0xE6
  | .incZpx _ => 0xF6
  | .incAbs _ => 0xEE
  | .incAbx _ => 0xFE
  | .decZp _ => 0xC6
  | .decZpx _ => 0xD6
  | .decAbs _ => 0xCE
  | .decAbx _ => 0xDE
  | .inx => 0xE8
  | .iny => 0xC8
  | .dex => 0xCA
  | .dey => 0x88
  | .aslAcc => 0x0A
  | .aslZp _ => 0x06
  | .aslZpx _ => 0x16
  | .aslAbs _ => 0x0E
  | .aslAbx _ => 0x1E
  | .lsrAcc => 0x4A
  | .lsrZp _ => 0x46
  | .lsrZpx _ => 0x56
  | .lsrAbs _ => 0x4E
  | .lsrAbx _ => 0x5E
  | .rolAcc => 0x2A
  | .rolZp _ => 0x26
  | .rolZpx _ => 0x36
  | .rolAbs _ => 0x2E
  | .rolAbx _ => 0x3E
  | .rorAcc => 0x6A
  | .rorZp _ => 0x66
  | .rorZpx _ => 0x76
  | .rorAbs _ => 0x6E
  | .rorAbx _ => 0x7E
  | .bcc _ => 0x90
  | .bcs _ => 0xB0
  | .beq _ => 0xF0
  | .bne _ => 0xD0
  | .bmi _ => 0x30
  | .bpl _ => 0x10
  | .bvc _ => 0x50
  | .bvs _ => 0x70
  | .jmpAbs _ => 0x4C
  | .jmpInd _ => 0x6C
  | .pha => 0x48
  | .php => 0x08
  | .pla => 0x68
  | .plp => 0x28
  | .jsr _ => 0x20
  | .rts => 0x60
  | .brk => 0x00
  | .rti => 0x40
  | .cmpImm _ => 0xC9
  | .cmpZp _ => 0xC5
  | .cmpZpx _ => 0xD5
  | .cmpAbs _ => 0xCD
  | .cmpAbx _ => 0xDD
  | .cmpAby _ => 0xD9
  | .cmpIzx _ => 0xC1
  | .cmpIzy _ => 0xD1
  | .cpxImm _ => 0xE0
  | .cpxZp _ => 0xE4
  | .cpxAbs _ => 0xEC
  | .cpyImm _ => 0xC0
  | .cpyZp _ => 0xC4
  | .cpyAbs _ => 0xCC
  | .clc => 0x18
  | .sec => 0x38
  | .cli => 0x58
  | .sei => 0x78
  | .cld => 0xD8
  | .sed => 0xF8
  | .clv => 0xB8
  | .nop => 0xEA

/-- The operand bytes of a data operand, in the order they follow the opcode (30_encoding.md R91). -/
def DataOperand.bytes : DataOperand → List Byte
  | .immediate v => [v]
  | .zeroPage z | .zeroPageX z | .zeroPageY z => [z]
  | .absolute w | .absoluteX w | .absoluteY w => [loByte w, hiByte w]
  | .indexedIndirectX z | .indirectIndexedY z => [z]

/-- The operand bytes of an operand, in the order they follow the opcode (30_encoding.md R91). -/
def Operand.bytes : Operand → List Byte
  | .implied | .accumulator => []
  | .data d => d.bytes
  | .indirect ptr => [loByte ptr, hiByte ptr]
  | .relative d => [d]

/-- The encoder: an instruction's bytes, first byte at the lowest address (30_encoding.md R91). -/
def encode (i : Instr) : List Byte := i.opcode :: i.operand.bytes

/-- The byte `k` of a table word: bits `8k + 7` to `8k` of `w`, those at or above `nbits` taken as 0. -/
def tableByte (nbits w k : Nat) : Byte := BitVec.ofNat 8 (w % 2 ^ nbits / 2 ^ (8 * k))

/-- The instruction the decoder reads from the bytes of a word numbered as spec/opcode_table.json numbers
it: the first byte is bits 7 to 0, the bits at or above `nbits` are 0. -/
def decodeTableWord (nbits w : Nat) : Option Instr :=
  match decode [tableByte nbits w 0, tableByte nbits w 1, tableByte nbits w 2] with
  | .ok (i, _) => some i
  | .error _ => none

end Sys2Proof
end

