-- ==== Sys2Proof/Machine/Flags.lean ====
section
/-! DEFINITION. Every flag computation of the core, on bytes alone: the flag accessor, the two transforms of
P, the N/Z update, the add/subtract core and the shifts. -/

namespace Sys2Proof.Machine

/-- The named bits of P (10_state.md R26; `u` is bit 5, R7 of 00_scope.md). -/
inductive Flag where
  | n | v | u | b | d | i | z | c
  deriving DecidableEq, Repr

/-- The bit position of a flag in P (10_state.md R26). -/
def Flag.pos : Flag → Nat
  | .n => 7
  | .v => 6
  | .u => 5
  | .b => 4
  | .d => 3
  | .i => 2
  | .z => 1
  | .c => 0

/-- `get(flag)` (10_state.md R28). -/
def getFlag (p : Byte) (f : Flag) : Bool := p.getLsbD f.pos

/-- `set(flag, bit)` (10_state.md R28): one bit of P written, the other seven kept. -/
def setFlag (p : Byte) (f : Flag) (bit : Bool) : Byte :=
  (p &&& ~~~(1#8 <<< f.pos)) ||| ((BitVec.ofBool bit).setWidth 8 <<< f.pos)

/-- `StatusForPush` (10_state.md R29). -/
def statusForPush (p : Byte) : Byte := p ||| 0x30

/-- `RestoreFromPull` (10_state.md R30). -/
def restoreFromPull (b : Byte) : Byte := (b &&& 0xEF) ||| 0x20

/-- `SetNZ` (10_state.md R36), as the new P. -/
def setNZ (p v : Byte) : Byte := setFlag (setFlag p .z (v == 0)) .n v.msb

/-- What the add/subtract core returns (40_add_subtract.md R140). -/
structure AddResult where
  result : Byte
  carry : Bool
  overflow : Bool
  deriving DecidableEq, Repr

/-- `AddCore` (40_add_subtract.md R140). -/
def addCore (a b : Byte) (c : Bool) : AddResult :=
  let t := a.toNat + b.toNat + c.toNat
  let r := BitVec.ofNat 8 t
  { result := r
    carry := decide (256 ≤ t)
    overflow := (!a.msb && !b.msb && r.msb) || (a.msb && b.msb && !r.msb) }

/-- The C, V, Z, N update of ADC and SBC (40_add_subtract.md R141, R142), as the new P. -/
def addFlags (p : Byte) (r : AddResult) : Byte :=
  setNZ (setFlag (setFlag p .c r.carry) .v r.overflow) r.result

/-- `Compare` (46_compare.md R240), as the new P: no borrow in, V discarded. -/
def compareFlags (p reg val : Byte) : Byte :=
  let r := addCore reg (val ^^^ 0xFF) true
  setNZ (setFlag p .c r.carry) r.result

/-- The Z, N, V update of BIT (42_logic_incdec.md R173), as the new P. -/
def bitFlags (p a val : Byte) : Byte :=
  setFlag (setFlag (setFlag p .z ((a &&& val) == 0)) .n (val.getLsbD 7)) .v (val.getLsbD 6)

/-- A byte moved by one bit position and the bit shifted off (43_shift_rotate.md R190). -/
structure ShiftResult where
  result : Byte
  carry : Bool
  deriving DecidableEq, Repr

/-- ASL (43_shift_rotate.md R191); the old C is not read. -/
def shiftAsl (v : Byte) (_ : Bool) : ShiftResult :=
  { result := v <<< 1, carry := v.getLsbD 7 }

/-- LSR (43_shift_rotate.md R192); the old C is not read. -/
def shiftLsr (v : Byte) (_ : Bool) : ShiftResult :=
  { result := v >>> 1, carry := v.getLsbD 0 }

/-- ROL (43_shift_rotate.md R193): the old C enters bit 0. -/
def shiftRol (v : Byte) (c : Bool) : ShiftResult :=
  { result := (v <<< 1) ||| (BitVec.ofBool c).setWidth 8, carry := v.getLsbD 7 }

/-- ROR (43_shift_rotate.md R194): the old C enters bit 7. -/
def shiftRor (v : Byte) (c : Bool) : ShiftResult :=
  { result := (v >>> 1) ||| ((BitVec.ofBool c).setWidth 8 <<< 7), carry := v.getLsbD 0 }

/-- The C, Z, N update of a shift (43_shift_rotate.md R191 to R194), as the new P. -/
def shiftFlags (p : Byte) (r : ShiftResult) : Byte :=
  setNZ (setFlag p .c r.carry) r.result

end Sys2Proof.Machine
end

