-- ==== Sys2Proof/Config.lean ====
section
/-! DEFINITION. What is fixed for one machine and not changed by a step: the parameters of 00_scope.md R4,
and the one free value of the model. -/

namespace Sys2Proof

/-- `MEM_SIZE` (00_scope.md R4): the bytes of memory. -/
def Config.memSize : Nat := 65536

/-- `STACK_BASE` (00_scope.md R4): the address of the stack page. -/
def Config.stackBase : Nat := 0x0100

/-- `ENTRY_PC` of the fixed constant `State.reset` (00_scope.md R4, 92_eei_decisions.md D1: OPEN). The spec
names no value; this is the entry address of the programs of 95_test_vectors.md. DESIGN CHOICE, unsafe: log
entry 1. The reset operation `State.hostReset` takes ENTRY_PC as an argument instead. -/
def Config.entryPc : Word := 0x8000

/-- What a memory cell that no list entry names reads as. `INITIAL_MEMORY` is OPEN (20_memory.md R78).
DESIGN CHOICE, unsafe for `State.reset`: log entry 2. A state that holds any other image lists it. -/
def Config.unlistedByte : Byte := 0x00

/-- The values of the parameter `BRK_PC_POLICY` (45_stack_subroutine_interrupt.md R226). -/
inductive BrkPcPolicy where
  /-- No value of PC is defined after BRK, and no step until the host writes PC. -/
  | unspecified
  /-- PC keeps the address of the BRK. -/
  | hold
  /-- PC takes the automatic advance by one. -/
  | advance1
  /-- PC is read from 0xFFFE and 0xFFFF. -/
  | vector
  deriving DecidableEq, Repr, Inhabited

/-- `BRK_PC_POLICY` (00_scope.md R4, 92_eei_decisions.md D2: OPEN, "no proof may fix its value"). It has no
body: a claim about BRK holds for all four policies. Safe: log entry 3. -/
opaque Config.brkPcPolicy : BrkPcPolicy

/-- The PC a BRK leaves under `unspecified`: "a model must not give PC a value after BRK"
(45_stack_subroutine_interrupt.md R226). The argument counts the values drawn. Safe: log entry 4. -/
opaque Config.unspecifiedPc : Nat → Word

end Sys2Proof
end

