-- ==== Sys2Proof/Machine/State.lean ====
section
/-! DEFINITION. The state of the core as plain data, the reasons a step can stop, and the state after
reset. -/

namespace Sys2Proof.Machine

/-- Memory: the cells that do not read as `Config.unlistedByte`, by strictly rising address
(10_state.md R37). -/
abbrev Memory := List Host.Cell

/-- The two stack-wrap warnings (20_memory.md R69). -/
inductive StackWarning where
  /-- A push found S = 0x00. -/
  | stackOverflow
  /-- A pop found S = 0xFF. -/
  | stackUnderflow
  deriving DecidableEq, Repr

/-- What `step()` returns beside `ok` (00_scope.md R12, R14): the step's cycle count and its stack warnings
in the order of its pushes and pops (60_exceptions.md R304). No rule reads either. -/
structure StepOutput where
  cycles : Nat
  warnings : List StackWarning
  deriving DecidableEq, Repr

/-- The state: the six registers of 10_state.md R20, memory (R37), whether PC is `stuck`
(45_stack_subroutine_interrupt.md R226), the outputs of the last step, and the model's own count of free
values drawn. -/
structure State where
  /-- A (10_state.md R21). -/
  a : Byte
  /-- X (10_state.md R22). -/
  x : Byte
  /-- Y (10_state.md R23). -/
  y : Byte
  /-- S, an offset into page 1 (10_state.md R24). -/
  sp : Byte
  /-- P, the packed status byte (10_state.md R26); all eight bits are storage (R32). -/
  p : Byte
  /-- PC (10_state.md R25). -/
  pc : Word
  /-- PC is `stuck`: no step is defined until the host writes PC (45_stack_subroutine_interrupt.md R226,
  70_reset_and_hazards.md R337). -/
  pcStuck : Bool
  /-- The 65536 cells (10_state.md R37, 20_memory.md R60). -/
  mem : Memory
  /-- The outputs of the last step (00_scope.md R12, R14): log entry 5. -/
  out : StepOutput
  /-- The model's own field: how many free values have been drawn. Log entry 4. -/
  freeCount : Nat
  deriving DecidableEq, Repr

/-- Why a step stops with a fault. -/
inductive Fault where
  /-- Raised by `step` when the byte at PC has no table entry (60_exceptions.md R300): the hardware's own
  error, with its payload. The state stays as it was before the step (R301). Safe: the hardware stops here
  too. -/
  | unimplementedOpcode (opcode : Byte) (pc : Word)
  /-- Raised by `step` when a BRK under `BRK_PC_POLICY = unspecified` has left PC stuck and the host has not
  written it: "no further `step()` is defined" (45_stack_subroutine_interrupt.md R226). Safe: nothing is
  claimed of the hardware after it. -/
  | pcStuck
  deriving DecidableEq, Repr

/-- Why an instruction has no meaning. -/
inductive Refusal where
  /-- Raised by an arm of `exec` whose instruction is not modelled yet; no arm is left so. Safe: nothing is
  claimed of the instruction. -/
  | notModelled (mnemonic : String)
  deriving DecidableEq, Repr

/-- The machine right after reset (10_state.md R40): PC is `ENTRY_PC` (log entry 1), memory lists nothing
(log entry 2), no step has returned an output (log entry 5), no free value is drawn (log entry 4). -/
def State.reset : State :=
  { a := 0x00
    x := 0x00
    y := 0x00
    sp := 0xFF
    p := 0x00
    pc := Config.entryPc
    pcStuck := false
    mem := []
    out := { cycles := 0, warnings := [] }
    freeCount := 0 }

end Sys2Proof.Machine
end

