-- ==== Sys2Proof/Machine/Ops.lean ====
section
/-! DEFINITION. The shared operations: memory cells, the two bus primitives, register writes, the stack unit,
the automatic PC advance, taking a software interrupt and returning from one, and fetching an instruction. -/

namespace Sys2Proof.Machine

/-- The byte of a cell: its entry's, or `Config.unlistedByte` where no entry names it. The search stops at the
first larger address, as the addresses rise. -/
def Memory.readCell : Memory → Nat → Byte
  | [], _ => Config.unlistedByte
  | (k, b) :: rest, a =>
    if a < k then Config.unlistedByte
    else if a = k then b
    else Memory.readCell rest a

/-- Memory with the byte of one cell replaced, in the canonical form: a cell that reads as
`Config.unlistedByte` has no entry. -/
def Memory.writeCell : Memory → Nat → Byte → Memory
  | [], a, b => if b = Config.unlistedByte then [] else [(a, b)]
  | (k, c) :: rest, a, b =>
    if a < k then if b = Config.unlistedByte then (k, c) :: rest else (a, b) :: (k, c) :: rest
    else if a = k then if b = Config.unlistedByte then rest else (a, b) :: rest
    else (k, c) :: Memory.writeCell rest a b

/-- The canonical form from address `lo` on: addresses at least `lo`, strictly rising, below `MEM_SIZE`, and
no entry equal to what an unlisted address reads as. -/
def Memory.wfFrom : Nat → Memory → Bool
  | _, [] => true
  | lo, (k, b) :: rest =>
    decide (lo ≤ k) && decide (k < Config.memSize) && decide (b ≠ Config.unlistedByte)
      && Memory.wfFrom (k + 1) rest

/-- The canonical form of memory. -/
def Memory.wf (m : Memory) : Bool := Memory.wfFrom 0 m

/-- `MemRead(addr, 1)` (20_memory.md R61): the address reduced modulo `MEM_SIZE`. -/
def State.memRead (s : State) (addr : Nat) : Byte := Memory.readCell s.mem (addr % Config.memSize)

/-- `MemWrite(addr, 1, v)` (20_memory.md R62). -/
def State.memWrite (s : State) (addr : Nat) (v : Byte) : State :=
  { s with mem := Memory.writeCell s.mem (addr % Config.memSize) v }

/-- `MemRead` at a 16-bit address. -/
def State.readByte (s : State) (addr : Word) : Byte := s.memRead addr.toNat

/-- `MemWrite` at a 16-bit address. -/
def State.writeByte (s : State) (addr : Word) (v : Byte) : State := s.memWrite addr.toNat v

/-- `Read16(a_lo, a_hi)` (20_memory.md R64): a little-endian word from two given byte addresses. -/
def State.read16 (s : State) (aLo aHi : Word) : Word := joinBytes (s.readByte aHi) (s.readByte aLo)

/-- `NextInPage(p)` (20_memory.md R65): only the low byte is incremented. -/
def nextInPage (p : Word) : Word := (p &&& 0xFF00) ||| ((p + 1) &&& 0x00FF)

/-- The word at a zero-page pointer; its high byte is fetched with wraparound in page zero
(20_memory.md R66). -/
def State.readZeroPagePointer (s : State) (z : Byte) : Word := s.read16 (zext16 z) (zext16 (z + 1))

/-- `A <- v`. -/
def State.setA (s : State) (v : Byte) : State := { s with a := v }

/-- `X <- v`. -/
def State.setX (s : State) (v : Byte) : State := { s with x := v }

/-- `Y <- v`. -/
def State.setY (s : State) (v : Byte) : State := { s with y := v }

/-- `S <- v`. -/
def State.setSp (s : State) (v : Byte) : State := { s with sp := v }

/-- `P <- v`. -/
def State.setP (s : State) (v : Byte) : State := { s with p := v }

/-- `PC <- v`. -/
def State.setPc (s : State) (v : Word) : State := { s with pc := v }

/-- The outputs of a step that has counted `cycles` and warned of nothing yet (30_encoding.md R113). -/
def State.setCycles (s : State) (cycles : Nat) : State :=
  { s with out := { cycles := cycles, warnings := [] } }

/-- A stack warning emitted where `wraps` holds (20_memory.md R69). -/
def State.warnIf (s : State) (wraps : Bool) (w : StackWarning) : State :=
  { s with out := { s.out with warnings := s.out.warnings ++ (if wraps then [w] else []) } }

/-- The automatic advance of PC by an instruction's length (30_encoding.md R112). -/
def State.advance (s : State) (len : Nat) : State := s.setPc (s.pc + BitVec.ofNat 16 len)

/-- The address of the stack slot that S = `sp` names (10_state.md R24). -/
def stackSlot (sp : Byte) : Nat := Config.stackBase + sp.toNat

/-- `Push(v)` (20_memory.md R67), with its warning (R69). -/
def State.push (s : State) (v : Byte) : State :=
  ((s.memWrite (stackSlot s.sp) v).setSp (s.sp - 1)).warnIf (s.sp == 0x00) .stackOverflow

/-- `Pop()` (20_memory.md R68), with its warning (R69): the byte and the state after it. -/
def State.pop (s : State) : Byte × State :=
  (s.memRead (stackSlot (s.sp + 1)), (s.setSp (s.sp + 1)).warnIf (s.sp == 0xFF) .stackUnderflow)

/-- Two pushes of a word, its high byte first (20_memory.md R64). -/
def State.pushWord (s : State) (w : Word) : State := (s.push (hiByte w)).push (loByte w)

/-- Two pops of a word, its low byte first (45_stack_subroutine_interrupt.md R225, R227). -/
def State.popWord (s : State) : Word × State :=
  let lo := s.pop
  let hi := lo.2.pop
  (joinBytes hi.1 lo.1, hi.2)

/-- What PC holds after a BRK under each policy (45_stack_subroutine_interrupt.md R226). -/
def State.pcAfterBreak (s : State) (policy : BrkPcPolicy) : Word :=
  match policy with
  | .unspecified => Config.unspecifiedPc s.freeCount
  | .hold => s.pc
  | .advance1 => s.pc + 1
  | .vector => s.read16 0xFFFE 0xFFFF

/-- The PC write of BRK (45_stack_subroutine_interrupt.md R226); under `unspecified` PC is then stuck and a
free value has been drawn. -/
def State.leavePcAfterBreak (s : State) (policy : BrkPcPolicy) : State :=
  { s with
    pc := s.pcAfterBreak policy
    pcStuck := if policy = .unspecified then true else s.pcStuck
    freeCount := if policy = .unspecified then s.freeCount + 1 else s.freeCount }

/-- TRAP ENTRY (45_stack_subroutine_interrupt.md R226, 60_exceptions.md R305): PC + 2 is pushed, high byte
first, then `StatusForPush(P)` with P as it was; I becomes 1 in the live P; PC by the policy. -/
def State.takeBreak (s : State) (policy : BrkPcPolicy) : State :=
  let pushed := (s.pushWord (s.pc + 2)).push (statusForPush s.p)
  (pushed.setP (setFlag s.p .i true)).leavePcAfterBreak policy

/-- TRAP RETURN (45_stack_subroutine_interrupt.md R227, 60_exceptions.md R306): P is restored from the popped
byte, then PC from the popped word; nothing is added to it. -/
def State.returnFromInterrupt (s : State) : State :=
  let status := s.pop
  let target := status.2.popWord
  (target.2.setP (restoreFromPull status.1)).setPc target.1

/-- The instruction at PC: the opcode byte at PC and the bytes at PC + 1 and PC + 2, decoded
(30_encoding.md R91, R111); `none` where the opcode byte has no table entry. -/
def State.fetchInstr (s : State) : Option Instr :=
  decodeOpcode (s.readByte s.pc) (s.readByte (s.pc + 1)) (s.readByte (s.pc + 2))

end Sys2Proof.Machine
end

