-- ==== Sys2Proof/Machine/Operands.lean ====
section
/-! DEFINITION. The addressing-mode resolver (30_encoding.md R92 to R106). Operand bytes come with the
instruction, which read them before it executes (30_encoding.md R111; log entry 6). The resolver writes
nothing. -/

namespace Sys2Proof.Machine

/-- The address before the index register is added, in the modes that report a page cross
(30_encoding.md R100, R101, R104). -/
def indexBase (d : DataOperand) (s : State) : Option Word :=
  match d with
  | .absoluteX w => some w
  | .absoluteY w => some w
  | .indirectIndexedY z => some (s.readZeroPagePointer z)
  | .immediate _ | .zeroPage _ | .zeroPageX _ | .zeroPageY _ | .absolute _ | .indexedIndirectX _ => none

/-- The effective address `ea` of a data operand (30_encoding.md R95 to R101, R103, R104). -/
def effectiveAddress (d : DataOperand) (s : State) : Word :=
  match d with
  | .immediate _ => s.pc + 1
  | .zeroPage z => zext16 z
  | .zeroPageX z => zext16 (z + s.x)
  | .zeroPageY z => zext16 (z + s.y)
  | .absolute w => w
  | .absoluteX w => w + zext16 s.x
  | .absoluteY w => w + zext16 s.y
  | .indexedIndirectX z => s.readZeroPagePointer (z + s.x)
  | .indirectIndexedY z => s.readZeroPagePointer z + zext16 s.y

/-- The byte `val` of a data operand: the operand byte itself in Immediate mode, else the byte at `ea`
(30_encoding.md R92, R95). -/
def operandValue (d : DataOperand) (s : State) : Byte :=
  match d with
  | .immediate v => v
  | .zeroPage _ | .zeroPageX _ | .zeroPageY _ | .absolute _ | .absoluteX _ | .absoluteY _
  | .indexedIndirectX _ | .indirectIndexedY _ => s.readByte (effectiveAddress d s)

/-- The output `cross` of a data operand (30_encoding.md R106): the high byte of `ea` is not the base's. -/
def pageCross (d : DataOperand) (s : State) : Bool :=
  match indexBase d s with
  | some base => hiByte (effectiveAddress d s) != hiByte base
  | none => false

/-- The address of Indirect mode (30_encoding.md R102): the word at the pointer, its high byte from the same
page. -/
def indirectTarget (ptr : Word) (s : State) : Word := s.read16 ptr (nextInPage ptr)

/-- The address of Relative mode (30_encoding.md R105). -/
def relativeTarget (d : Byte) (s : State) : Word := s.pc + 2 + sext16 d

/-- The resolver's three outputs (30_encoding.md R92); an output a mode does not have is absent
(93_implementation_defined.md U6; log entry 8). -/
structure Resolved where
  val : Option Byte
  ea : Option Word
  cross : Bool
  deriving DecidableEq, Repr

/-- The resolver over all 13 modes (30_encoding.md R92 to R105). -/
def resolve (o : Operand) (s : State) : Resolved :=
  match o with
  | .implied => { val := none, ea := none, cross := false }
  | .accumulator => { val := some s.a, ea := none, cross := false }
  | .data d =>
    { val := some (operandValue d s), ea := some (effectiveAddress d s), cross := pageCross d s }
  | .indirect ptr => { val := none, ea := some (indirectTarget ptr s), cross := false }
  | .relative d => { val := none, ea := some (relativeTarget d s), cross := false }

/-- The cycle count of a step: the row's base count plus one on a page cross (30_encoding.md R113). -/
def stepCycles (base : Nat) (o : Operand) (s : State) : Nat := base + (resolve o s).cross.toNat

/-- The start of every meaning: the outputs of the step, for a row with this operand and base count. -/
def State.beginStep (s : State) (base : Nat) (o : Operand) : State := s.setCycles (stepCycles base o s)

/-- The automatic advance by the length of an operand's mode (30_encoding.md R112). -/
def State.advanceOver (s : State) (o : Operand) : State := s.advance o.mode.length

end Sys2Proof.Machine
end

