-- ==== Sys2Proof/Machine/AddSubtract.lean ====
section
/-! DEFINITION. ADC and SBC: the add/subtract core on A. One meaning a row of the opcode table; each follows the rule of
40_add_subtract.md its docstring names and passes the row's base cycle count (70_reset_and_hazards.md R334). -/

namespace Sys2Proof.Machine

/-- ADC (40_add_subtract.md R141). The D flag is not read (R143). -/
def runAdc (d : DataOperand) (base : Nat) (s : State) : Host.Outcome State Fault Refusal :=
  let r := addCore s.a (operandValue d s) (getFlag s.p .c)
  .next ((((s.beginStep base (.data d)).setA r.result).setP (addFlags s.p r)).advanceOver (.data d))

/-- SBC (40_add_subtract.md R142): the second operand complemented, C fed unchanged (90_conflicts.md C4). -/
def runSbc (d : DataOperand) (base : Nat) (s : State) : Host.Outcome State Fault Refusal :=
  let r := addCore s.a (operandValue d s ^^^ 0xFF) (getFlag s.p .c)
  .next ((((s.beginStep base (.data d)).setA r.result).setP (addFlags s.p r)).advanceOver (.data d))

/-- ADC, Immediate mode, opcode 69 (R141). -/
def execAdcImm (v : Byte) (s : State) : Host.Outcome State Fault Refusal :=
  runAdc (.immediate v) 2 s

/-- ADC, ZeroPage mode, opcode 65 (R141). -/
def execAdcZp (z : Byte) (s : State) : Host.Outcome State Fault Refusal :=
  runAdc (.zeroPage z) 3 s

/-- ADC, ZeroPageX mode, opcode 75 (R141). -/
def execAdcZpx (z : Byte) (s : State) : Host.Outcome State Fault Refusal :=
  runAdc (.zeroPageX z) 4 s

/-- ADC, Absolute mode, opcode 6D (R141). -/
def execAdcAbs (w : Word) (s : State) : Host.Outcome State Fault Refusal :=
  runAdc (.absolute w) 4 s

/-- ADC, AbsoluteX mode, opcode 7D (R141). -/
def execAdcAbx (w : Word) (s : State) : Host.Outcome State Fault Refusal :=
  runAdc (.absoluteX w) 4 s

/-- ADC, AbsoluteY mode, opcode 79 (R141). -/
def execAdcAby (w : Word) (s : State) : Host.Outcome State Fault Refusal :=
  runAdc (.absoluteY w) 4 s

/-- ADC, IndexedIndirectX mode, opcode 61 (R141). -/
def execAdcIzx (z : Byte) (s : State) : Host.Outcome State Fault Refusal :=
  runAdc (.indexedIndirectX z) 6 s

/-- ADC, IndirectIndexedY mode, opcode 71 (R141). -/
def execAdcIzy (z : Byte) (s : State) : Host.Outcome State Fault Refusal :=
  runAdc (.indirectIndexedY z) 5 s

/-- SBC, Immediate mode, opcode E9 (R142). -/
def execSbcImm (v : Byte) (s : State) : Host.Outcome State Fault Refusal :=
  runSbc (.immediate v) 2 s

/-- SBC, ZeroPage mode, opcode E5 (R142). -/
def execSbcZp (z : Byte) (s : State) : Host.Outcome State Fault Refusal :=
  runSbc (.zeroPage z) 3 s

/-- SBC, ZeroPageX mode, opcode F5 (R142). -/
def execSbcZpx (z : Byte) (s : State) : Host.Outcome State Fault Refusal :=
  runSbc (.zeroPageX z) 4 s

/-- SBC, Absolute mode, opcode ED (R142). -/
def execSbcAbs (w : Word) (s : State) : Host.Outcome State Fault Refusal :=
  runSbc (.absolute w) 4 s

/-- SBC, AbsoluteX mode, opcode FD (R142). -/
def execSbcAbx (w : Word) (s : State) : Host.Outcome State Fault Refusal :=
  runSbc (.absoluteX w) 4 s

/-- SBC, AbsoluteY mode, opcode F9 (R142). -/
def execSbcAby (w : Word) (s : State) : Host.Outcome State Fault Refusal :=
  runSbc (.absoluteY w) 4 s

/-- SBC, IndexedIndirectX mode, opcode E1 (R142). -/
def execSbcIzx (z : Byte) (s : State) : Host.Outcome State Fault Refusal :=
  runSbc (.indexedIndirectX z) 6 s

/-- SBC, IndirectIndexedY mode, opcode F1 (R142). -/
def execSbcIzy (z : Byte) (s : State) : Host.Outcome State Fault Refusal :=
  runSbc (.indirectIndexedY z) 5 s

end Sys2Proof.Machine
end

