-- ==== Sys2Proof/Machine/BranchJump.lean ====
section
/-! DEFINITION. Conditional branches and JMP; each writes PC itself. One meaning a row of the opcode table; each follows the rule of
44_branch_jump.md its docstring names and passes the row's base cycle count (70_reset_and_hazards.md R334). -/

namespace Sys2Proof.Machine

/-- The common branch rule (44_branch_jump.md R200). -/
def runBranch (cond : Bool) (d : Byte) (base : Nat) (s : State) : Host.Outcome State Fault Refusal :=
  .next ((s.beginStep base (.relative d)).setPc (if cond then relativeTarget d s else s.pc + 2))

/-- BCC, Relative mode, opcode 90 (R201). -/
def execBcc (d : Byte) (s : State) : Host.Outcome State Fault Refusal :=
  runBranch (!getFlag s.p .c) d 2 s

/-- BCS, Relative mode, opcode B0 (R202). -/
def execBcs (d : Byte) (s : State) : Host.Outcome State Fault Refusal :=
  runBranch (getFlag s.p .c) d 2 s

/-- BEQ, Relative mode, opcode F0 (R203). -/
def execBeq (d : Byte) (s : State) : Host.Outcome State Fault Refusal :=
  runBranch (getFlag s.p .z) d 2 s

/-- BNE, Relative mode, opcode D0 (R204). -/
def execBne (d : Byte) (s : State) : Host.Outcome State Fault Refusal :=
  runBranch (!getFlag s.p .z) d 2 s

/-- BMI, Relative mode, opcode 30 (R205). -/
def execBmi (d : Byte) (s : State) : Host.Outcome State Fault Refusal :=
  runBranch (getFlag s.p .n) d 2 s

/-- BPL, Relative mode, opcode 10 (R206). -/
def execBpl (d : Byte) (s : State) : Host.Outcome State Fault Refusal :=
  runBranch (!getFlag s.p .n) d 2 s

/-- BVC, Relative mode, opcode 50 (R207). -/
def execBvc (d : Byte) (s : State) : Host.Outcome State Fault Refusal :=
  runBranch (!getFlag s.p .v) d 2 s

/-- BVS, Relative mode, opcode 70 (R208). -/
def execBvs (d : Byte) (s : State) : Host.Outcome State Fault Refusal :=
  runBranch (getFlag s.p .v) d 2 s

/-- JMP, Absolute mode, opcode 4C (R209). -/
def execJmpAbs (w : Word) (s : State) : Host.Outcome State Fault Refusal :=
  .next ((s.beginStep 3 (.data (.absolute w))).setPc (effectiveAddress (.absolute w) s))

/-- JMP, Indirect mode, opcode 6C (R209). -/
def execJmpInd (w : Word) (s : State) : Host.Outcome State Fault Refusal :=
  .next ((s.beginStep 5 (.indirect w)).setPc (indirectTarget w s))

end Sys2Proof.Machine
end

