-- ==== Sys2Proof/Machine/Compare.lean ====
section
/-! DEFINITION. Compares. One meaning a row of the opcode table; each follows the rule of
46_compare.md its docstring names and passes the row's base cycle count (70_reset_and_hazards.md R334). -/

namespace Sys2Proof.Machine

/-- A compare of a register value with the operand (46_compare.md R240). -/
def runCompare (reg : Byte) (d : DataOperand) (base : Nat) (s : State) : Host.Outcome State Fault Refusal :=
  .next (((s.beginStep base (.data d)).setP (compareFlags s.p reg (operandValue d s))).advanceOver (.data d))

/-- CMP, Immediate mode, opcode C9 (R241). -/
def execCmpImm (v : Byte) (s : State) : Host.Outcome State Fault Refusal :=
  runCompare s.a (.immediate v) 2 s

/-- CMP, ZeroPage mode, opcode C5 (R241). -/
def execCmpZp (z : Byte) (s : State) : Host.Outcome State Fault Refusal :=
  runCompare s.a (.zeroPage z) 3 s

/-- CMP, ZeroPageX mode, opcode D5 (R241). -/
def execCmpZpx (z : Byte) (s : State) : Host.Outcome State Fault Refusal :=
  runCompare s.a (.zeroPageX z) 4 s

/-- CMP, Absolute mode, opcode CD (R241). -/
def execCmpAbs (w : Word) (s : State) : Host.Outcome State Fault Refusal :=
  runCompare s.a (.absolute w) 4 s

/-- CMP, AbsoluteX mode, opcode DD (R241). -/
def execCmpAbx (w : Word) (s : State) : Host.Outcome State Fault Refusal :=
  runCompare s.a (.absoluteX w) 4 s

/-- CMP, AbsoluteY mode, opcode D9 (R241). -/
def execCmpAby (w : Word) (s : State) : Host.Outcome State Fault Refusal :=
  runCompare s.a (.absoluteY w) 4 s

/-- CMP, IndexedIndirectX mode, opcode C1 (R241). -/
def execCmpIzx (z : Byte) (s : State) : Host.Outcome State Fault Refusal :=
  runCompare s.a (.indexedIndirectX z) 6 s

/-- CMP, IndirectIndexedY mode, opcode D1 (R241). -/
def execCmpIzy (z : Byte) (s : State) : Host.Outcome State Fault Refusal :=
  runCompare s.a (.indirectIndexedY z) 5 s

/-- CPX, Immediate mode, opcode E0 (R242). -/
def execCpxImm (v : Byte) (s : State) : Host.Outcome State Fault Refusal :=
  runCompare s.x (.immediate v) 2 s

/-- CPX, ZeroPage mode, opcode E4 (R242). -/
def execCpxZp (z : Byte) (s : State) : Host.Outcome State Fault Refusal :=
  runCompare s.x (.zeroPage z) 3 s

/-- CPX, Absolute mode, opcode EC (R242). -/
def execCpxAbs (w : Word) (s : State) : Host.Outcome State Fault Refusal :=
  runCompare s.x (.absolute w) 4 s

/-- CPY, Immediate mode, opcode C0 (R243). -/
def execCpyImm (v : Byte) (s : State) : Host.Outcome State Fault Refusal :=
  runCompare s.y (.immediate v) 2 s

/-- CPY, ZeroPage mode, opcode C4 (R243). -/
def execCpyZp (z : Byte) (s : State) : Host.Outcome State Fault Refusal :=
  runCompare s.y (.zeroPage z) 3 s

/-- CPY, Absolute mode, opcode CC (R243). -/
def execCpyAbs (w : Word) (s : State) : Host.Outcome State Fault Refusal :=
  runCompare s.y (.absolute w) 4 s

end Sys2Proof.Machine
end

