-- ==== Sys2Proof/Machine/FlagNop.lean ====
section
/-! DEFINITION. Flag set and clear instructions, NOP. One meaning a row of the opcode table; each follows the rule of
47_flag_nop.md its docstring names and passes the row's base cycle count (70_reset_and_hazards.md R334). -/

namespace Sys2Proof.Machine

/-- One bit of P written (47_flag_nop.md R250 to R256). -/
def runSetFlag (f : Flag) (bit : Bool) (base : Nat) (s : State) : Host.Outcome State Fault Refusal :=
  .next (((s.beginStep base .implied).setP (setFlag s.p f bit)).advanceOver .implied)

/-- CLC, Implied mode, opcode 18 (R250). -/
def execClc (s : State) : Host.Outcome State Fault Refusal :=
  runSetFlag .c false 2 s

/-- SEC, Implied mode, opcode 38 (R251). -/
def execSec (s : State) : Host.Outcome State Fault Refusal :=
  runSetFlag .c true 2 s

/-- CLI, Implied mode, opcode 58 (R252). -/
def execCli (s : State) : Host.Outcome State Fault Refusal :=
  runSetFlag .i false 2 s

/-- SEI, Implied mode, opcode 78 (R253). -/
def execSei (s : State) : Host.Outcome State Fault Refusal :=
  runSetFlag .i true 2 s

/-- CLD, Implied mode, opcode D8 (R254). -/
def execCld (s : State) : Host.Outcome State Fault Refusal :=
  runSetFlag .d false 2 s

/-- SED, Implied mode, opcode F8 (R255). -/
def execSed (s : State) : Host.Outcome State Fault Refusal :=
  runSetFlag .d true 2 s

/-- CLV, Implied mode, opcode B8 (R256). -/
def execClv (s : State) : Host.Outcome State Fault Refusal :=
  runSetFlag .v false 2 s

/-- NOP, Implied mode, opcode EA (R257). -/
def execNop (s : State) : Host.Outcome State Fault Refusal :=
  .next ((s.beginStep 2 .implied).advanceOver .implied)

end Sys2Proof.Machine
end

