-- ==== Sys2Proof/Machine/LoadStore.lean ====
section
/-! DEFINITION. Loads, stores and register transfers. One meaning a row of the opcode table; each follows the rule of
41_load_store_transfer.md its docstring names and passes the row's base cycle count (70_reset_and_hazards.md R334). -/

namespace Sys2Proof.Machine

/-- LDA (41_load_store_transfer.md R150). -/
def runLda (d : DataOperand) (base : Nat) (s : State) : Host.Outcome State Fault Refusal :=
  let v := operandValue d s
  .next ((((s.beginStep base (.data d)).setA v).setP (setNZ s.p v)).advanceOver (.data d))

/-- LDX (41_load_store_transfer.md R151). -/
def runLdx (d : DataOperand) (base : Nat) (s : State) : Host.Outcome State Fault Refusal :=
  let v := operandValue d s
  .next ((((s.beginStep base (.data d)).setX v).setP (setNZ s.p v)).advanceOver (.data d))

/-- LDY (41_load_store_transfer.md R152). -/
def runLdy (d : DataOperand) (base : Nat) (s : State) : Host.Outcome State Fault Refusal :=
  let v := operandValue d s
  .next ((((s.beginStep base (.data d)).setY v).setP (setNZ s.p v)).advanceOver (.data d))

/-- A store of `v` at the effective address (41_load_store_transfer.md R153 to R155); no flag is written. -/
def runStore (v : Byte) (d : DataOperand) (base : Nat) (s : State) : Host.Outcome State Fault Refusal :=
  .next (((s.beginStep base (.data d)).writeByte (effectiveAddress d s) v).advanceOver (.data d))

/-- LDA, Immediate mode, opcode A9 (R150). -/
def execLdaImm (v : Byte) (s : State) : Host.Outcome State Fault Refusal :=
  runLda (.immediate v) 2 s

/-- LDA, ZeroPage mode, opcode A5 (R150). -/
def execLdaZp (z : Byte) (s : State) : Host.Outcome State Fault Refusal :=
  runLda (.zeroPage z) 3 s

/-- LDA, ZeroPageX mode, opcode B5 (R150). -/
def execLdaZpx (z : Byte) (s : State) : Host.Outcome State Fault Refusal :=
  runLda (.zeroPageX z) 4 s

/-- LDA, Absolute mode, opcode AD (R150). -/
def execLdaAbs (w : Word) (s : State) : Host.Outcome State Fault Refusal :=
  runLda (.absolute w) 4 s

/-- LDA, AbsoluteX mode, opcode BD (R150). -/
def execLdaAbx (w : Word) (s : State) : Host.Outcome State Fault Refusal :=
  runLda (.absoluteX w) 4 s

/-- LDA, AbsoluteY mode, opcode B9 (R150). -/
def execLdaAby (w : Word) (s : State) : Host.Outcome State Fault Refusal :=
  runLda (.absoluteY w) 4 s

/-- LDA, IndexedIndirectX mode, opcode A1 (R150). -/
def execLdaIzx (z : Byte) (s : State) : Host.Outcome State Fault Refusal :=
  runLda (.indexedIndirectX z) 6 s

/-- LDA, IndirectIndexedY mode, opcode B1 (R150). -/
def execLdaIzy (z : Byte) (s : State) : Host.Outcome State Fault Refusal :=
  runLda (.indirectIndexedY z) 5 s

/-- LDX, Immediate mode, opcode A2 (R151). -/
def execLdxImm (v : Byte) (s : State) : Host.Outcome State Fault Refusal :=
  runLdx (.immediate v) 2 s

/-- LDX, ZeroPage mode, opcode A6 (R151). -/
def execLdxZp (z : Byte) (s : State) : Host.Outcome State Fault Refusal :=
  runLdx (.zeroPage z) 3 s

/-- LDX, ZeroPageY mode, opcode B6 (R151). -/
def execLdxZpy (z : Byte) (s : State) : Host.Outcome State Fault Refusal :=
  runLdx (.zeroPageY z) 4 s

/-- LDX, Absolute mode, opcode AE (R151). -/
def execLdxAbs (w : Word) (s : State) : Host.Outcome State Fault Refusal :=
  runLdx (.absolute w) 4 s

/-- LDX, AbsoluteY mode, opcode BE (R151). -/
def execLdxAby (w : Word) (s : State) : Host.Outcome State Fault Refusal :=
  runLdx (.absoluteY w) 4 s

/-- LDY, Immediate mode, opcode A0 (R152). -/
def execLdyImm (v : Byte) (s : State) : Host.Outcome State Fault Refusal :=
  runLdy (.immediate v) 2 s

/-- LDY, ZeroPage mode, opcode A4 (R152). -/
def execLdyZp (z : Byte) (s : State) : Host.Outcome State Fault Refusal :=
  runLdy (.zeroPage z) 3 s

/-- LDY, ZeroPageX mode, opcode B4 (R152). -/
def execLdyZpx (z : Byte) (s : State) : Host.Outcome State Fault Refusal :=
  runLdy (.zeroPageX z) 4 s

/-- LDY, Absolute mode, opcode AC (R152). -/
def execLdyAbs (w : Word) (s : State) : Host.Outcome State Fault Refusal :=
  runLdy (.absolute w) 4 s

/-- LDY, AbsoluteX mode, opcode BC (R152). -/
def execLdyAbx (w : Word) (s : State) : Host.Outcome State Fault Refusal :=
  runLdy (.absoluteX w) 4 s

/-- STA, ZeroPage mode, opcode 85 (R153). -/
def execStaZp (z : Byte) (s : State) : Host.Outcome State Fault Refusal :=
  runStore s.a (.zeroPage z) 3 s

/-- STA, ZeroPageX mode, opcode 95 (R153). -/
def execStaZpx (z : Byte) (s : State) : Host.Outcome State Fault Refusal :=
  runStore s.a (.zeroPageX z) 4 s

/-- STA, Absolute mode, opcode 8D (R153). -/
def execStaAbs (w : Word) (s : State) : Host.Outcome State Fault Refusal :=
  runStore s.a (.absolute w) 4 s

/-- STA, AbsoluteX mode, opcode 9D (R153). -/
def execStaAbx (w : Word) (s : State) : Host.Outcome State Fault Refusal :=
  runStore s.a (.absoluteX w) 5 s

/-- STA, AbsoluteY mode, opcode 99 (R153). -/
def execStaAby (w : Word) (s : State) : Host.Outcome State Fault Refusal :=
  runStore s.a (.absoluteY w) 5 s

/-- STA, IndexedIndirectX mode, opcode 81 (R153). -/
def execStaIzx (z : Byte) (s : State) : Host.Outcome State Fault Refusal :=
  runStore s.a (.indexedIndirectX z) 6 s

/-- STA, IndirectIndexedY mode, opcode 91 (R153). -/
def execStaIzy (z : Byte) (s : State) : Host.Outcome State Fault Refusal :=
  runStore s.a (.indirectIndexedY z) 6 s

/-- STX, ZeroPage mode, opcode 86 (R154). -/
def execStxZp (z : Byte) (s : State) : Host.Outcome State Fault Refusal :=
  runStore s.x (.zeroPage z) 3 s

/-- STX, ZeroPageY mode, opcode 96 (R154). -/
def execStxZpy (z : Byte) (s : State) : Host.Outcome State Fault Refusal :=
  runStore s.x (.zeroPageY z) 4 s

/-- STX, Absolute mode, opcode 8E (R154). -/
def execStxAbs (w : Word) (s : State) : Host.Outcome State Fault Refusal :=
  runStore s.x (.absolute w) 4 s

/-- STY, ZeroPage mode, opcode 84 (R155). -/
def execStyZp (z : Byte) (s : State) : Host.Outcome State Fault Refusal :=
  runStore s.y (.zeroPage z) 3 s

/-- STY, ZeroPageX mode, opcode 94 (R155). -/
def execStyZpx (z : Byte) (s : State) : Host.Outcome State Fault Refusal :=
  runStore s.y (.zeroPageX z) 4 s

/-- STY, Absolute mode, opcode 8C (R155). -/
def execStyAbs (w : Word) (s : State) : Host.Outcome State Fault Refusal :=
  runStore s.y (.absolute w) 4 s

/-- TAX, Implied mode, opcode AA (R156). -/
def execTax (s : State) : Host.Outcome State Fault Refusal :=
  .next ((((s.beginStep 2 .implied).setX s.a).setP (setNZ s.p s.a)).advanceOver .implied)

/-- TAY, Implied mode, opcode A8 (R157). -/
def execTay (s : State) : Host.Outcome State Fault Refusal :=
  .next ((((s.beginStep 2 .implied).setY s.a).setP (setNZ s.p s.a)).advanceOver .implied)

/-- TXA, Implied mode, opcode 8A (R158). -/
def execTxa (s : State) : Host.Outcome State Fault Refusal :=
  .next ((((s.beginStep 2 .implied).setA s.x).setP (setNZ s.p s.x)).advanceOver .implied)

/-- TYA, Implied mode, opcode 98 (R159). -/
def execTya (s : State) : Host.Outcome State Fault Refusal :=
  .next ((((s.beginStep 2 .implied).setA s.y).setP (setNZ s.p s.y)).advanceOver .implied)

/-- TSX, Implied mode, opcode BA (R160). -/
def execTsx (s : State) : Host.Outcome State Fault Refusal :=
  .next ((((s.beginStep 2 .implied).setX s.sp).setP (setNZ s.p s.sp)).advanceOver .implied)

/-- TXS, Implied mode, opcode 9A (R161). -/
def execTxs (s : State) : Host.Outcome State Fault Refusal :=
  .next (((s.beginStep 2 .implied).setSp s.x).advanceOver .implied)

end Sys2Proof.Machine
end

