-- ==== Sys2Proof/Machine/LogicIncDec.lean ====
section
/-! DEFINITION. Logic on A, bit test, increments and decrements. One meaning a row of the opcode table; each follows the rule of
42_logic_incdec.md its docstring names and passes the row's base cycle count (70_reset_and_hazards.md R334). -/

namespace Sys2Proof.Machine

/-- A logic operation on A (42_logic_incdec.md R170 to R172). -/
def runLogic (f : Byte → Byte → Byte) (d : DataOperand) (base : Nat) (s : State) : Host.Outcome State Fault Refusal :=
  let r := f s.a (operandValue d s)
  .next ((((s.beginStep base (.data d)).setA r).setP (setNZ s.p r)).advanceOver (.data d))

/-- BIT (42_logic_incdec.md R173). -/
def runBit (d : DataOperand) (base : Nat) (s : State) : Host.Outcome State Fault Refusal :=
  .next (((s.beginStep base (.data d)).setP (bitFlags s.p s.a (operandValue d s))).advanceOver (.data d))

/-- `v` added to the byte at the effective address, wrapping (42_logic_incdec.md R174, R175); neither C nor V
is touched. -/
def runAddToMemory (v : Byte) (d : DataOperand) (base : Nat) (s : State) : Host.Outcome State Fault Refusal :=
  let r := operandValue d s + v
  .next ((((s.beginStep base (.data d)).writeByte (effectiveAddress d s) r).setP (setNZ s.p r)).advanceOver
    (.data d))

/-- AND, Immediate mode, opcode 29 (R170). -/
def execAndImm (v : Byte) (s : State) : Host.Outcome State Fault Refusal :=
  runLogic (· &&& ·) (.immediate v) 2 s

/-- AND, ZeroPage mode, opcode 25 (R170). -/
def execAndZp (z : Byte) (s : State) : Host.Outcome State Fault Refusal :=
  runLogic (· &&& ·) (.zeroPage z) 3 s

/-- AND, ZeroPageX mode, opcode 35 (R170). -/
def execAndZpx (z : Byte) (s : State) : Host.Outcome State Fault Refusal :=
  runLogic (· &&& ·) (.zeroPageX z) 4 s

/-- AND, Absolute mode, opcode 2D (R170). -/
def execAndAbs (w : Word) (s : State) : Host.Outcome State Fault Refusal :=
  runLogic (· &&& ·) (.absolute w) 4 s

/-- AND, AbsoluteX mode, opcode 3D (R170). -/
def execAndAbx (w : Word) (s : State) : Host.Outcome State Fault Refusal :=
  runLogic (· &&& ·) (.absoluteX w) 4 s

/-- AND, AbsoluteY mode, opcode 39 (R170). -/
def execAndAby (w : Word) (s : State) : Host.Outcome State Fault Refusal :=
  runLogic (· &&& ·) (.absoluteY w) 4 s

/-- AND, IndexedIndirectX mode, opcode 21 (R170). -/
def execAndIzx (z : Byte) (s : State) : Host.Outcome State Fault Refusal :=
  runLogic (· &&& ·) (.indexedIndirectX z) 6 s

/-- AND, IndirectIndexedY mode, opcode 31 (R170). -/
def execAndIzy (z : Byte) (s : State) : Host.Outcome State Fault Refusal :=
  runLogic (· &&& ·) (.indirectIndexedY z) 5 s

/-- ORA, Immediate mode, opcode 09 (R171). -/
def execOraImm (v : Byte) (s : State) : Host.Outcome State Fault Refusal :=
  runLogic (· ||| ·) (.immediate v) 2 s

/-- ORA, ZeroPage mode, opcode 05 (R171). -/
def execOraZp (z : Byte) (s : State) : Host.Outcome State Fault Refusal :=
  runLogic (· ||| ·) (.zeroPage z) 3 s

/-- ORA, ZeroPageX mode, opcode 15 (R171). -/
def execOraZpx (z : Byte) (s : State) : Host.Outcome State Fault Refusal :=
  runLogic (· ||| ·) (.zeroPageX z) 4 s

/-- ORA, Absolute mode, opcode 0D (R171). -/
def execOraAbs (w : Word) (s : State) : Host.Outcome State Fault Refusal :=
  runLogic (· ||| ·) (.absolute w) 4 s

/-- ORA, AbsoluteX mode, opcode 1D (R171). -/
def execOraAbx (w : Word) (s : State) : Host.Outcome State Fault Refusal :=
  runLogic (· ||| ·) (.absoluteX w) 4 s

/-- ORA, AbsoluteY mode, opcode 19 (R171). -/
def execOraAby (w : Word) (s : State) : Host.Outcome State Fault Refusal :=
  runLogic (· ||| ·) (.absoluteY w) 4 s

/-- ORA, IndexedIndirectX mode, opcode 01 (R171). -/
def execOraIzx (z : Byte) (s : State) : Host.Outcome State Fault Refusal :=
  runLogic (· ||| ·) (.indexedIndirectX z) 6 s

/-- ORA, IndirectIndexedY mode, opcode 11 (R171). -/
def execOraIzy (z : Byte) (s : State) : Host.Outcome State Fault Refusal :=
  runLogic (· ||| ·) (.indirectIndexedY z) 5 s

/-- EOR, Immediate mode, opcode 49 (R172). -/
def execEorImm (v : Byte) (s : State) : Host.Outcome State Fault Refusal :=
  runLogic (· ^^^ ·) (.immediate v) 2 s

/-- EOR, ZeroPage mode, opcode 45 (R172). -/
def execEorZp (z : Byte) (s : State) : Host.Outcome State Fault Refusal :=
  runLogic (· ^^^ ·) (.zeroPage z) 3 s

/-- EOR, ZeroPageX mode, opcode 55 (R172). -/
def execEorZpx (z : Byte) (s : State) : Host.Outcome State Fault Refusal :=
  runLogic (· ^^^ ·) (.zeroPageX z) 4 s

/-- EOR, Absolute mode, opcode 4D (R172). -/
def execEorAbs (w : Word) (s : State) : Host.Outcome State Fault Refusal :=
  runLogic (· ^^^ ·) (.absolute w) 4 s

/-- EOR, AbsoluteX mode, opcode 5D (R172). -/
def execEorAbx (w : Word) (s : State) : Host.Outcome State Fault Refusal :=
  runLogic (· ^^^ ·) (.absoluteX w) 4 s

/-- EOR, AbsoluteY mode, opcode 59 (R172). -/
def execEorAby (w : Word) (s : State) : Host.Outcome State Fault Refusal :=
  runLogic (· ^^^ ·) (.absoluteY w) 4 s

/-- EOR, IndexedIndirectX mode, opcode 41 (R172). -/
def execEorIzx (z : Byte) (s : State) : Host.Outcome State Fault Refusal :=
  runLogic (· ^^^ ·) (.indexedIndirectX z) 6 s

/-- EOR, IndirectIndexedY mode, opcode 51 (R172). -/
def execEorIzy (z : Byte) (s : State) : Host.Outcome State Fault Refusal :=
  runLogic (· ^^^ ·) (.indirectIndexedY z) 5 s

/-- BIT, ZeroPage mode, opcode 24 (R173). -/
def execBitZp (z : Byte) (s : State) : Host.Outcome State Fault Refusal :=
  runBit (.zeroPage z) 3 s

/-- BIT, Absolute mode, opcode 2C (R173). -/
def execBitAbs (w : Word) (s : State) : Host.Outcome State Fault Refusal :=
  runBit (.absolute w) 4 s

/-- INC, ZeroPage mode, opcode E6 (R174). -/
def execIncZp (z : Byte) (s : State) : Host.Outcome State Fault Refusal :=
  runAddToMemory 1 (.zeroPage z) 5 s

/-- INC, ZeroPageX mode, opcode F6 (R174). -/
def execIncZpx (z : Byte) (s : State) : Host.Outcome State Fault Refusal :=
  runAddToMemory 1 (.zeroPageX z) 6 s

/-- INC, Absolute mode, opcode EE (R174). -/
def execIncAbs (w : Word) (s : State) : Host.Outcome State Fault Refusal :=
  runAddToMemory 1 (.absolute w) 6 s

/-- INC, AbsoluteX mode, opcode FE (R174). -/
def execIncAbx (w : Word) (s : State) : Host.Outcome State Fault Refusal :=
  runAddToMemory 1 (.absoluteX w) 7 s

/-- DEC, ZeroPage mode, opcode C6 (R175). -/
def execDecZp (z : Byte) (s : State) : Host.Outcome State Fault Refusal :=
  runAddToMemory (-1) (.zeroPage z) 5 s

/-- DEC, ZeroPageX mode, opcode D6 (R175). -/
def execDecZpx (z : Byte) (s : State) : Host.Outcome State Fault Refusal :=
  runAddToMemory (-1) (.zeroPageX z) 6 s

/-- DEC, Absolute mode, opcode CE (R175). -/
def execDecAbs (w : Word) (s : State) : Host.Outcome State Fault Refusal :=
  runAddToMemory (-1) (.absolute w) 6 s

/-- DEC, AbsoluteX mode, opcode DE (R175). -/
def execDecAbx (w : Word) (s : State) : Host.Outcome State Fault Refusal :=
  runAddToMemory (-1) (.absoluteX w) 7 s

/-- INX, Implied mode, opcode E8 (R176). -/
def execInx (s : State) : Host.Outcome State Fault Refusal :=
  .next ((((s.beginStep 2 .implied).setX (s.x + 1)).setP (setNZ s.p (s.x + 1))).advanceOver .implied)

/-- INY, Implied mode, opcode C8 (R177). -/
def execIny (s : State) : Host.Outcome State Fault Refusal :=
  .next ((((s.beginStep 2 .implied).setY (s.y + 1)).setP (setNZ s.p (s.y + 1))).advanceOver .implied)

/-- DEX, Implied mode, opcode CA (R178). -/
def execDex (s : State) : Host.Outcome State Fault Refusal :=
  .next ((((s.beginStep 2 .implied).setX (s.x - 1)).setP (setNZ s.p (s.x - 1))).advanceOver .implied)

/-- DEY, Implied mode, opcode 88 (R179). -/
def execDey (s : State) : Host.Outcome State Fault Refusal :=
  .next ((((s.beginStep 2 .implied).setY (s.y - 1)).setP (setNZ s.p (s.y - 1))).advanceOver .implied)

end Sys2Proof.Machine
end

