-- ==== Sys2Proof/Machine/Shift.lean ====
section
/-! DEFINITION. Shifts and rotates, on A or on memory. One meaning a row of the opcode table; each follows the rule of
43_shift_rotate.md its docstring names and passes the row's base cycle count (70_reset_and_hazards.md R334). -/

namespace Sys2Proof.Machine

/-- A shift in Accumulator mode (43_shift_rotate.md R190): the result goes to A. -/
def runShiftA (f : Byte → Bool → ShiftResult) (base : Nat) (s : State) : Host.Outcome State Fault Refusal :=
  let r := f s.a (getFlag s.p .c)
  .next ((((s.beginStep base .accumulator).setA r.result).setP (shiftFlags s.p r)).advanceOver .accumulator)

/-- A shift in a memory mode (43_shift_rotate.md R190): one write, at the same address; A is not changed. -/
def runShiftMemory (f : Byte → Bool → ShiftResult) (d : DataOperand) (base : Nat) (s : State) :
    Host.Outcome State Fault Refusal :=
  let r := f (operandValue d s) (getFlag s.p .c)
  .next ((((s.beginStep base (.data d)).writeByte (effectiveAddress d s) r.result).setP
    (shiftFlags s.p r)).advanceOver (.data d))

/-- ASL, Accumulator mode, opcode 0A (R191). -/
def execAslAcc (s : State) : Host.Outcome State Fault Refusal :=
  runShiftA shiftAsl 2 s

/-- ASL, ZeroPage mode, opcode 06 (R191). -/
def execAslZp (z : Byte) (s : State) : Host.Outcome State Fault Refusal :=
  runShiftMemory shiftAsl (.zeroPage z) 5 s

/-- ASL, ZeroPageX mode, opcode 16 (R191). -/
def execAslZpx (z : Byte) (s : State) : Host.Outcome State Fault Refusal :=
  runShiftMemory shiftAsl (.zeroPageX z) 6 s

/-- ASL, Absolute mode, opcode 0E (R191). -/
def execAslAbs (w : Word) (s : State) : Host.Outcome State Fault Refusal :=
  runShiftMemory shiftAsl (.absolute w) 6 s

/-- ASL, AbsoluteX mode, opcode 1E (R191). -/
def execAslAbx (w : Word) (s : State) : Host.Outcome State Fault Refusal :=
  runShiftMemory shiftAsl (.absoluteX w) 7 s

/-- LSR, Accumulator mode, opcode 4A (R192). -/
def execLsrAcc (s : State) : Host.Outcome State Fault Refusal :=
  runShiftA shiftLsr 2 s

/-- LSR, ZeroPage mode, opcode 46 (R192). -/
def execLsrZp (z : Byte) (s : State) : Host.Outcome State Fault Refusal :=
  runShiftMemory shiftLsr (.zeroPage z) 5 s

/-- LSR, ZeroPageX mode, opcode 56 (R192). -/
def execLsrZpx (z : Byte) (s : State) : Host.Outcome State Fault Refusal :=
  runShiftMemory shiftLsr (.zeroPageX z) 6 s

/-- LSR, Absolute mode, opcode 4E (R192). -/
def execLsrAbs (w : Word) (s : State) : Host.Outcome State Fault Refusal :=
  runShiftMemory shiftLsr (.absolute w) 6 s

/-- LSR, AbsoluteX mode, opcode 5E (R192). -/
def execLsrAbx (w : Word) (s : State) : Host.Outcome State Fault Refusal :=
  runShiftMemory shiftLsr (.absoluteX w) 7 s

/-- ROL, Accumulator mode, opcode 2A (R193). -/
def execRolAcc (s : State) : Host.Outcome State Fault Refusal :=
  runShiftA shiftRol 2 s

/-- ROL, ZeroPage mode, opcode 26 (R193). -/
def execRolZp (z : Byte) (s : State) : Host.Outcome State Fault Refusal :=
  runShiftMemory shiftRol (.zeroPage z) 5 s

/-- ROL, ZeroPageX mode, opcode 36 (R193). -/
def execRolZpx (z : Byte) (s : State) : Host.Outcome State Fault Refusal :=
  runShiftMemory shiftRol (.zeroPageX z) 6 s

/-- ROL, Absolute mode, opcode 2E (R193). -/
def execRolAbs (w : Word) (s : State) : Host.Outcome State Fault Refusal :=
  runShiftMemory shiftRol (.absolute w) 6 s

/-- ROL, AbsoluteX mode, opcode 3E (R193). -/
def execRolAbx (w : Word) (s : State) : Host.Outcome State Fault Refusal :=
  runShiftMemory shiftRol (.absoluteX w) 7 s

/-- ROR, Accumulator mode, opcode 6A (R194). -/
def execRorAcc (s : State) : Host.Outcome State Fault Refusal :=
  runShiftA shiftRor 2 s

/-- ROR, ZeroPage mode, opcode 66 (R194). -/
def execRorZp (z : Byte) (s : State) : Host.Outcome State Fault Refusal :=
  runShiftMemory shiftRor (.zeroPage z) 5 s

/-- ROR, ZeroPageX mode, opcode 76 (R194). -/
def execRorZpx (z : Byte) (s : State) : Host.Outcome State Fault Refusal :=
  runShiftMemory shiftRor (.zeroPageX z) 6 s

/-- ROR, Absolute mode, opcode 6E (R194). -/
def execRorAbs (w : Word) (s : State) : Host.Outcome State Fault Refusal :=
  runShiftMemory shiftRor (.absolute w) 6 s

/-- ROR, AbsoluteX mode, opcode 7E (R194). -/
def execRorAbx (w : Word) (s : State) : Host.Outcome State Fault Refusal :=
  runShiftMemory shiftRor (.absoluteX w) 7 s

end Sys2Proof.Machine
end

