-- ==== Sys2Proof/Machine/StackInterrupt.lean ====
section
/-! DEFINITION. Stack, subroutine and interrupt-return instructions. One meaning a row of the opcode table; each follows the rule of
45_stack_subroutine_interrupt.md its docstring names and passes the row's base cycle count (70_reset_and_hazards.md R334). -/

namespace Sys2Proof.Machine


/-- PHA, Implied mode, opcode 48 (R220). -/
def execPha (s : State) : Host.Outcome State Fault Refusal :=
  .next (((s.beginStep 3 .implied).push s.a).advanceOver .implied)

/-- PHP, Implied mode, opcode 08 (R221). -/
def execPhp (s : State) : Host.Outcome State Fault Refusal :=
  .next (((s.beginStep 3 .implied).push (statusForPush s.p)).advanceOver .implied)

/-- PLA, Implied mode, opcode 68 (R222). -/
def execPla (s : State) : Host.Outcome State Fault Refusal :=
  let r := (s.beginStep 4 .implied).pop
  .next (((r.2.setA r.1).setP (setNZ s.p r.1)).advanceOver .implied)

/-- PLP, Implied mode, opcode 28 (R223). -/
def execPlp (s : State) : Host.Outcome State Fault Refusal :=
  let r := (s.beginStep 4 .implied).pop
  .next ((r.2.setP (restoreFromPull r.1)).advanceOver .implied)

/-- JSR, Absolute mode, opcode 20 (R224). -/
def execJsr (w : Word) (s : State) : Host.Outcome State Fault Refusal :=
  .next (((s.beginStep 6 (.data (.absolute w))).pushWord (s.pc + 2)).setPc (effectiveAddress (.absolute w) s))

/-- RTS, Implied mode, opcode 60 (R225). -/
def execRts (s : State) : Host.Outcome State Fault Refusal :=
  let r := (s.beginStep 6 .implied).popWord
  .next (r.2.setPc (r.1 + 1))

/-- BRK, Implied mode, opcode 00 (R226). -/
def execBrk (s : State) : Host.Outcome State Fault Refusal :=
  .next ((s.beginStep 7 .implied).takeBreak Config.brkPcPolicy)

/-- RTI, Implied mode, opcode 40 (R227). -/
def execRti (s : State) : Host.Outcome State Fault Refusal :=
  .next ((s.beginStep 6 .implied).returnFromInterrupt)

end Sys2Proof.Machine
end

