-- ==== Sys2Proof/Machine/Step.lean ====
section
/-! DEFINITION. One step of the core (30_encoding.md R111), and placing an instruction where the next step
fetches it. -/

namespace Sys2Proof.Machine

/-- `step()` (00_scope.md R12, 30_encoding.md R111): fetch at PC, look up, execute. A byte with no table entry
is the error of 60_exceptions.md R300; while PC is stuck no step is defined
(45_stack_subroutine_interrupt.md R226). -/
def step (s : State) : Host.Outcome State Fault Refusal :=
  if s.pcStuck then .fault .pcStuck
  else
    match s.fetchInstr with
    | some i => exec i s
    | none => .fault (.unimplementedOpcode (s.readByte s.pc) s.pc)

/-- `s` with the bytes of a table word at PC, PC + 1 and PC + 2, and PC not stuck, so that the next step runs
it. Log entry 7. -/
def State.withFetchWord (s : State) (nbits w : Nat) : State :=
  let s₁ := s.writeByte s.pc (tableByte nbits w 0)
  let s₂ := s₁.writeByte (s.pc + 1) (tableByte nbits w 1)
  let s₃ := s₂.writeByte (s.pc + 2) (tableByte nbits w 2)
  { s₃ with pcStuck := false }

end Sys2Proof.Machine
end

