-- ==== Sys2Proof/Machine/HostOps.lean ====
section
/-! DEFINITION. What the host may do between steps (00_scope.md R10 to R13, 70_reset_and_hazards.md R330,
R331). None of these is a step of the core. -/

namespace Sys2Proof.Machine

/-- `reset()` (10_state.md R40, 70_reset_and_hazards.md R330) with `ENTRY_PC` as its argument: the registers
take their reset values, a stuck PC is cancelled, memory is not touched. -/
def State.hostReset (s : State) (entryPc : Word) : State :=
  { s with a := 0x00, x := 0x00, y := 0x00, sp := 0xFF, p := 0x00, pc := entryPc, pcStuck := false }

/-- The six registers as the host names them (00_scope.md R13). -/
structure Registers where
  a : Byte
  x : Byte
  y : Byte
  pc : Word
  sp : Byte
  p : Byte
  deriving DecidableEq, Repr

/-- `inspectRegisters()` (00_scope.md R13): P is the raw stored byte. While PC is stuck its value is a free
value (log entry 4). -/
def State.inspectRegisters (s : State) : Registers :=
  { a := s.a, x := s.x, y := s.y, pc := s.pc, sp := s.sp, p := s.p }

/-- `inspectMemory()` (00_scope.md R13): "a read of any memory cell between steps, with no effect on state". -/
def State.inspectMemory (s : State) (addr : Nat) : Byte := s.memRead addr

/-- Register values as the host hands them over, before the masking of 10_state.md R27. -/
structure RegisterValues where
  a : Nat
  x : Nat
  y : Nat
  pc : Nat
  sp : Nat
  p : Nat
  deriving DecidableEq, Repr

/-- `loadRegisters` (00_scope.md R13): each value masked to its register's width (10_state.md R27). The host
writes PC, so PC is not stuck afterwards (45_stack_subroutine_interrupt.md R226). -/
def State.loadRegisters (s : State) (r : RegisterValues) : State :=
  { s with
    a := BitVec.ofNat 8 r.a
    x := BitVec.ofNat 8 r.x
    y := BitVec.ofNat 8 r.y
    sp := BitVec.ofNat 8 r.sp
    p := BitVec.ofNat 8 r.p
    pc := BitVec.ofNat 16 r.pc
    pcStuck := false }

/-- `loadMemoryImage` (00_scope.md R11): a `MemWrite` for each pair in list order; other cells keep their
content. -/
def State.loadMemoryImage : State → List Host.Cell → State
  | s, [] => s
  | s, (addr, b) :: rest => State.loadMemoryImage (s.memWrite addr b) rest

/-- A launch (70_reset_and_hazards.md R331): reset with an entry address, then an image loaded. Any
`INITIAL_MEMORY` (20_memory.md R78) is an image. -/
def State.launch (image : List Host.Cell) (entryPc : Word) : State :=
  (State.reset.hostReset entryPc).loadMemoryImage image

end Sys2Proof.Machine
end

