-- ==== Sys2Proof/Safety.lean ====
section
/-! DEFINITION. The terms in which claims speak of a safe run: the states claims may start from, and a step
that goes on. -/

namespace Sys2Proof.Machine

/-- The invariant of the machine: memory is in its canonical form (10_state.md R37: 65536 cells, each one
byte). Every other field holds only legal values by its type (10_state.md R27). -/
def State.Inv (s : State) : Prop := Memory.wf s.mem = true

/-- A state in which the next step executes an instruction: PC is not stuck
(45_stack_subroutine_interrupt.md R226) and the byte at PC has a table entry (30_encoding.md R107). -/
def State.Runs (s : State) : Prop := s.pcStuck = false ∧ s.fetchInstr ≠ none

/-- A run of `n` steps goes on to its end: no step of it stops (70_reset_and_hazards.md R337). -/
def SafeRun (n : Nat) (s : State) : Prop := ∃ t, Host.Core.run Sys2Proof.core n s = .next t

end Sys2Proof.Machine
end

