-- ==== Sys2Proof/Certificates/Slice0/Obligations.lean ====
section
/-! DEFINITION. The statements for the provers. The rules are those of spec/; where a clause rests on a decision
the spec marks as its own, or on a choice of this model, the docstring says so and names it. -/

namespace Sys2Proof.Claims

open Sys2Proof.Machine

/-- The 105 byte values of 30_encoding.md R108, as listed there. -/
def illegalOpcodes : List Byte :=
  ([0x02, 0x03, 0x04, 0x07, 0x0B, 0x0C, 0x0F, 0x12, 0x13, 0x14, 0x17, 0x1A, 0x1B, 0x1C, 0x1F, 0x22, 0x23, 0x27,
    0x2B, 0x2F, 0x32] : List Byte) ++
  [0x33, 0x34, 0x37, 0x3A, 0x3B, 0x3C, 0x3F, 0x42, 0x43, 0x44, 0x47, 0x4B, 0x4F, 0x52, 0x53, 0x54, 0x57, 0x5A,
    0x5B, 0x5C, 0x5F] ++
  [0x62, 0x63, 0x64, 0x67, 0x6B, 0x6F, 0x72, 0x73, 0x74, 0x77, 0x7A, 0x7B, 0x7C, 0x7F, 0x80, 0x82, 0x83, 0x87,
    0x89, 0x8B, 0x8F] ++
  [0x92, 0x93, 0x97, 0x9B, 0x9C, 0x9E, 0x9F, 0xA3, 0xA7, 0xAB, 0xAF, 0xB2, 0xB3, 0xB7, 0xBB, 0xBF, 0xC2, 0xC3,
    0xC7, 0xCB, 0xCF] ++
  [0xD2, 0xD3, 0xD4, 0xD7, 0xDA, 0xDB, 0xDC, 0xDF, 0xE2, 0xE3, 0xE7, 0xEB, 0xEF, 0xF2, 0xF3, 0xF4, 0xF7, 0xFA,
    0xFB, 0xFC, 0xFF]

/-- The base cycle counts of 70_reset_and_hazards.md R334, row by row; 0 where the table has no cell. -/
def baseCycles (m : Mnemonic) (mode : Mode) : Nat :=
  if m ∈ [.adc, .and, .cmp, .eor, .lda, .ora, .sbc] then
    match mode with
    | .immediate => 2 | .zeroPage => 3 | .zeroPageX => 4 | .absolute => 4 | .absoluteX => 4
    | .absoluteY => 4 | .indexedIndirectX => 6 | .indirectIndexedY => 5
    | .implied | .accumulator | .zeroPageY | .indirect | .relative => 0
  else if m = .sta then
    match mode with
    | .zeroPage => 3 | .zeroPageX => 4 | .absolute => 4 | .absoluteX => 5 | .absoluteY => 5
    | .indexedIndirectX => 6 | .indirectIndexedY => 6
    | .implied | .accumulator | .immediate | .zeroPageY | .indirect | .relative => 0
  else if m ∈ [.ldx, .ldy, .stx, .sty, .cpx, .cpy, .bit] then
    match mode with
    | .immediate => 2 | .zeroPage => 3 | .zeroPageX => 4 | .zeroPageY => 4 | .absolute => 4
    | .absoluteX => 4 | .absoluteY => 4
    | .implied | .accumulator | .indirect | .indexedIndirectX | .indirectIndexedY | .relative => 0
  else if m ∈ [.asl, .lsr, .rol, .ror, .inc, .dec] then
    match mode with
    | .accumulator => 2 | .zeroPage => 5 | .zeroPageX => 6 | .absolute => 6 | .absoluteX => 7
    | .implied | .immediate | .zeroPageY | .absoluteY | .indirect | .indexedIndirectX | .indirectIndexedY
    | .relative => 0
  else if m = .jmp then if mode = .indirect then 5 else 3
  else if m = .jsr then 6
  else if m = .brk then 7
  else if m ∈ [.rti, .rts] then 6
  else if m ∈ [.pha, .php] then 3
  else if m ∈ [.pla, .plp] then 4
  else 2

/-- The control-flow instructions (30_encoding.md R112). -/
def controlFlow : List Mnemonic :=
  [.bcc, .bcs, .beq, .bne, .bmi, .bpl, .bvc, .bvs, .jmp, .jsr, .rts, .rti, .brk]

/-- The instructions that write a flag by the accessor or a transform (10_state.md R26, the column "written
by"). -/
def flagWriters : Flag → List Mnemonic
  | .n | .z =>
    [.adc, .sbc, .and, .ora, .eor, .lda, .pla, .txa, .tya, .ldx, .tax, .tsx, .inx, .dex, .ldy, .tay, .iny, .dey,
      .inc, .dec, .asl, .lsr, .rol, .ror, .cmp, .cpx, .cpy, .bit, .plp, .rti]
  | .v => [.adc, .sbc, .bit, .clv, .plp, .rti]
  | .u => [.plp, .rti]
  | .b => [.plp, .rti]
  | .d => [.sed, .cld, .plp, .rti]
  | .i => [.sei, .cli, .brk, .plp, .rti]
  | .c => [.adc, .sbc, .cmp, .cpx, .cpy, .asl, .lsr, .rol, .ror, .clc, .sec, .plp, .rti]

/-- The condition each branch tests (44_branch_jump.md R201 to R208). -/
def branchCondition (p : Byte) : Mnemonic → Option Bool
  | .bcc => some (!getFlag p .c)
  | .bcs => some (getFlag p .c)
  | .beq => some (getFlag p .z)
  | .bne => some (!getFlag p .z)
  | .bmi => some (getFlag p .n)
  | .bpl => some (!getFlag p .n)
  | .bvc => some (!getFlag p .v)
  | .bvs => some (getFlag p .v)
  | _ => none

/-- The result of a shift and the bit shifted off, as numbers (43_shift_rotate.md R191 to R194). -/
def shiftOf (m : Mnemonic) (v : Nat) (c : Bool) : Option (Nat × Bool) :=
  match m with
  | .asl => some (2 * v % 256, decide (128 ≤ v))
  | .lsr => some (v / 2, decide (v % 2 = 1))
  | .rol => some ((2 * v + c.toNat) % 256, decide (128 ≤ v))
  | .ror => some (v / 2 + 128 * c.toNat, decide (v % 2 = 1))
  | _ => none

/-- Every flag outside `written` is in `q` as it is in `p`. -/
def FlagsKept (written : List Flag) (p q : Byte) : Prop := ∀ f, f ∉ written → getFlag q f = getFlag p f

/-- Z and N of `q` are those of the byte `v` (10_state.md R36). -/
def NZOf (v q : Byte) : Prop := (getFlag q .z = true ↔ v = 0) ∧ (getFlag q .n = true ↔ 128 ≤ v.toNat)

/-- Every address outside `changed` reads in `t` as it reads in `s`. -/
def CellsKept (changed : List Word) (s t : State) : Prop := ∀ a, a ∉ changed → t.readByte a = s.readByte a

/-- The address of the stack slot that S = `b` names (10_state.md R24). -/
def slot (b : Byte) : Word := 0x0100 + b.setWidth 16

/-- `i` run in `s` gives a next state, and `Q` holds of it. -/
def NextWith (i : Instr) (s : State) (Q : State → Prop) : Prop := ∃ t, exec i s = .next t ∧ Q t

/-- PC after a BRK under each policy (45_stack_subroutine_interrupt.md R226); under `unspecified` PC is stuck
and nothing is said of its value. -/
def PcByPolicy (policy : BrkPcPolicy) (s t : State) : Prop :=
  match policy with
  | .unspecified => t.pcStuck = true
  | .hold => t.pc = s.pc ∧ t.pcStuck = s.pcStuck
  | .advance1 => t.pc = s.pc + 1 ∧ t.pcStuck = s.pcStuck
  | .vector => t.pc = joinBytes (s.readByte 0xFFFF) (s.readByte 0xFFFE) ∧ t.pcStuck = s.pcStuck

/-- `t` is what trap entry under `policy` leaves of `s`: the three pushed bytes, I set, S lower by three, PC by
the policy, everything else kept. -/
def BreakEntered (policy : BrkPcPolicy) (s t : State) : Prop :=
  t = { s with
    mem := t.mem, sp := s.sp - 3, p := s.p ||| 0x04, pc := t.pc, pcStuck := t.pcStuck
    freeCount := t.freeCount, out := t.out } ∧
  t.readByte (slot s.sp) = hiByte (s.pc + 2) ∧ t.readByte (slot (s.sp - 1)) = loByte (s.pc + 2) ∧
  t.readByte (slot (s.sp - 2)) = s.p ||| 0x30 ∧
  CellsKept [slot s.sp, slot (s.sp - 1), slot (s.sp - 2)] s t ∧ PcByPolicy policy s t

/-- How many bytes an instruction pushes (45_stack_subroutine_interrupt.md R220, R221, R224, R226). -/
def pushes : Mnemonic → Nat
  | .pha | .php => 1
  | .jsr => 2
  | .brk => 3
  | _ => 0

/-- How many bytes an instruction pops (45_stack_subroutine_interrupt.md R222, R223, R225, R227). -/
def pops : Mnemonic → Nat
  | .pla | .plp => 1
  | .rts => 2
  | .rti => 3
  | _ => 0

end Sys2Proof.Claims

open Sys2Proof Sys2Proof.Machine Sys2Proof.Claims

/-- For every instruction with every operand at every value, and any bytes after it, the decoder reads the
instruction from its encoding and leaves exactly those bytes. The opcode bytes are the table the spec takes by
its decision D7. (Rests on: 30_encoding.md sections 1 and 3; 92_eei_decisions.md D7.) -/
def Obligations.DecodeOfEncodeIsTheInstruction : Prop :=
  ∀ (i : Instr) (rest : List Byte), decode (encode i ++ rest) = .ok (i, rest)

/-- Whenever the decoder reads an instruction from a byte sequence, the encoding of that instruction followed by the
bytes left over is the sequence: each instruction has one encoding, and no byte of it is dropped. (Rests on:
30_encoding.md sections 1 and 3; 92_eei_decisions.md D7.) -/
def Obligations.EncodeOfDecodeIsTheBytes : Prop :=
  ∀ (bytes : List Byte) (i : Instr) (rest : List Byte),
    decode bytes = .ok (i, rest) → encode i ++ rest = bytes

/-- Whatever bytes follow it, an opcode byte decodes to no instruction exactly when it is one of the 105 values
listed; the list has the provenance of the table (decision D7). (Rests on: 30_encoding.md section 3 (the list of
illegal encodings); 92_eei_decisions.md D7.) -/
def Obligations.ExactlyTheListedBytesAreNoOpcode : Prop :=
  ∀ op b1 b2 : Byte, decodeOpcode op b1 b2 = none ↔ op ∈ illegalOpcodes

/-- A9 42 is LDA #$42, 69 01 is ADC #$01, 6C FF 30 is JMP ($30FF), BD 34 12 is LDA $1234,X, 91 32 is STA ($32),Y, 0A
is ASL A, D0 F8 is BNE with displacement F8, 20 10 80 is JSR $8010. (Rests on: 30_encoding.md sections 3 and 5;
95_test_vectors.md section 2.) -/
def Obligations.WordsWrittenOutFromTheSpecDecode : Prop :=
  decode [0xA9, 0x42] = .ok (.ldaImm 0x42, []) ∧ decode [0x69, 0x01] = .ok (.adcImm 0x01, []) ∧
    decode [0x6C, 0xFF, 0x30] = .ok (.jmpInd 0x30FF, []) ∧
    decode [0xBD, 0x34, 0x12] = .ok (.ldaAbx 0x1234, []) ∧ decode [0x91, 0x32] = .ok (.staIzy 0x32, []) ∧
    decode [0x0A] = .ok (.aslAcc, []) ∧ decode [0xD0, 0xF8] = .ok (.bne 0xF8, []) ∧
    decode [0x20, 0x10, 0x80] = .ok (.jsr 0x8010, [])

/-- When PC is not stuck and the bytes at PC, PC + 1 and PC + 2 decode to an instruction, the step is that
instruction's meaning at that state and nothing more: each meaning moves PC itself. (Rests on: 30_encoding.md
section 4; 45_stack_subroutine_interrupt.md section 3 (PC stuck).) -/
def Obligations.StepRunsTheDecodedInstruction : Prop :=
  ∀ (s : State) (i : Instr) (rest : List Byte), s.pcStuck = false →
    decode [s.readByte s.pc, s.readByte (s.pc + 1), s.readByte (s.pc + 2)] = .ok (i, rest) →
    step s = exec i s

/-- When PC is not stuck and memory from PC on holds the encoding of an instruction, wrapping at the top of memory,
the step is that instruction's meaning at that state. (Rests on: 30_encoding.md sections 1 and 4;
92_eei_decisions.md D7.) -/
def Obligations.StepRunsTheBytesInMemory : Prop :=
  ∀ (s : State) (i : Instr), s.pcStuck = false →
    (∀ (k : Nat) (b : Byte), (encode i)[k]? = some b → s.readByte (s.pc + BitVec.ofNat 16 k) = b) →
    step s = exec i s

/-- When PC is not stuck and the byte at PC is one of the 105 listed values, the step is the fault
UnimplementedOpcode carrying that byte and PC, and no next state: the payload is the spec's decision D10. (Rests
on: 60_exceptions.md section 1; 92_eei_decisions.md D7, D10.) -/
def Obligations.UnlistedOpcodeRaisesTheError : Prop :=
  ∀ s : State, s.pcStuck = false → s.readByte s.pc ∈ illegalOpcodes →
    step s = .fault (.unimplementedOpcode (s.readByte s.pc) s.pc)

/-- For each of the 151 instructions, every operand and every state, the meaning answers a next state: no operation
fails. (Rests on: 60_exceptions.md section 1 (none of the operations themselves fail).) -/
def Obligations.EveryInstructionCompletes : Prop :=
  ∀ (i : Instr) (s : State), NextWith i s fun _ => True

/-- A step in a state whose PC is stuck is the fault pcStuck. A step in any other state faults only with
UnimplementedOpcode for the byte at PC, which then is a listed one. No step is refused. The fault pcStuck is the
model's form of the spec's treatment U2 (log entry 4). (Rests on: 60_exceptions.md section 1;
45_stack_subroutine_interrupt.md section 3; 93_implementation_defined.md U2.) -/
def Obligations.AStepStopsOnlyAtLookupOrStuckPc : Prop :=
  ∀ s : State, (s.pcStuck = true → step s = .fault .pcStuck) ∧
    (∀ r, s.pcStuck = false → step s = .fault r →
      r = .unimplementedOpcode (s.readByte s.pc) s.pc ∧ s.readByte s.pc ∈ illegalOpcodes) ∧
    ∀ r, step s ≠ .refused r

/-- For canonical memory, any two natural-number addresses and any byte: the cell an address names modulo 65536
reads as the written byte if the write named the same cell, else as before; and a read does not tell an address
from the same address plus 65536. (Rules: R61; R62.) -/
def Obligations.ReadsAndWritesReduceTheAddress : Prop :=
  ∀ (s : State) (addr addr' : Nat) (v : Byte), s.Inv →
    (s.memWrite addr v).memRead addr' = (if addr' % 65536 = addr % 65536 then v else s.memRead addr') ∧
    s.memWrite addr v = { s with mem := (s.memWrite addr v).mem } ∧
    s.memRead (addr + 65536) = s.memRead addr

/-- From any state and for any entry address: A, X, Y are 0, S is 0xFF, P is 0, PC is the entry address and not
stuck, and memory is unchanged. That the last step's outputs are kept is the model's choice (log entry 5), as is
that the count of free values, a field of the model's own, is kept (log entry 4). (Rests on:
70_reset_and_hazards.md section 1; 10_state.md section 7; 92_eei_decisions.md D1, D20, D23.) -/
def Obligations.ResetLeavesTheDocumentedState : Prop :=
  ∀ (s : State) (entry : Word),
    let t := s.hostReset entry
    t.a = 0 ∧ t.x = 0 ∧ t.y = 0 ∧ t.sp = 0xFF ∧ t.p = 0 ∧ t.pc = entry ∧ t.pcStuck = false ∧ t.mem = s.mem ∧
      t.freeCount = s.freeCount ∧ t.out = s.out

/-- For canonical memory and any image: a cell no pair names reads as before, and a cell that some pair names reads
as the byte of the last pair that names it; no register changes. (Rules: R11.) -/
def Obligations.LoadedImageIsReadBack : Prop :=
  ∀ (s : State) (image : List Host.Cell) (addr : Nat), s.Inv →
    let t := s.loadMemoryImage image
    t = { s with mem := t.mem } ∧
    ((∀ c ∈ image, c.1 % 65536 ≠ addr % 65536) → t.memRead addr = s.memRead addr) ∧
    ∀ before c after, image = before ++ c :: after → c.1 % 65536 = addr % 65536 →
      (∀ c' ∈ after, c'.1 % 65536 ≠ addr % 65536) → t.memRead addr = c.2

/-- For any state and any six natural numbers, inspectRegisters after loadRegisters gives each value modulo 256, PC
modulo 65536; PC is not stuck, and memory is unchanged. That PC is not stuck afterwards is deduced from R226, by
which PC is stuck until the host writes it (log entry 4). (Rests on: 00_scope.md section 5 (loadRegisters);
10_state.md section 3 (masking, R27); 45_stack_subroutine_interrupt.md section 3 (R226).) -/
def Obligations.LoadRegistersMasksToWidth : Prop :=
  ∀ (s : State) (r : RegisterValues),
    let t := s.loadRegisters r
    let i := t.inspectRegisters
    i.a.toNat = r.a % 256 ∧ i.x.toNat = r.x % 256 ∧ i.y.toNat = r.y % 256 ∧ i.sp.toNat = r.sp % 256 ∧
      i.p.toNat = r.p % 256 ∧ i.pc.toNat = r.pc % 65536 ∧ t.pcStuck = false ∧ t.mem = s.mem

/-- For every assignment of a byte to every address and every entry address there is an image whose launch reads so
at every address: the model's choice of what an unlisted cell reads as (log entry 2) shuts out no
INITIAL_MEMORY. (Rests on: 20_memory.md section 6 (INITIAL_MEMORY); 92_eei_decisions.md D11.) -/
def Obligations.AnyInitialMemoryCanBeLaunched : Prop :=
  ∀ (content : Word → Byte) (entry : Word),
    ∃ image, ∀ a, (State.launch image entry).readByte a = content a

/-- From every state whose memory is canonical (addresses strictly rising below 65536, no entry for a cell that
reads as unlisted), a step that gives a next state gives one whose memory is canonical. The form is the model's
representation (log entry 2). (Rests on: 10_state.md section 5; 20_memory.md section 1.) -/
def Obligations.EveryStepKeepsMemoryCanonical : Prop :=
  ∀ s t : State, s.Inv → step s = .next t → t.Inv

/-- The state after reset and the state after a launch with any image and any entry address have canonical memory.
The form, and that the memory of the state after reset lists no cell, are the model's representation and choice
(log entry 2); the sections cited give the cells, the launch and that their initial content is open. (Rests on:
70_reset_and_hazards.md section 1 (launch); 10_state.md section 5 (65536 cells of one byte); 20_memory.md
section 6 (INITIAL_MEMORY).) -/
def Obligations.LaunchedMemoryIsCanonical : Prop :=
  State.reset.Inv ∧ ∀ (image : List Host.Cell) (entry : Word), (State.launch image entry).Inv

/-- Immediate: the address is PC + 1 modulo 65536, and the value is the operand byte, which is the byte at the
address where that cell holds it. ZeroPage: the address is the operand byte, and the value is the byte at the
address. Absolute: the address is the word high byte : low byte, and the value is the byte at the address. No
page cross is reported. That the operand bytes come with the decoded instruction, so that the Immediate value is
that byte whatever the cell at PC + 1 holds, is deduced (log entry 6). (Rests on: 30_encoding.md section 2 (R95,
R96, R99).) -/
def Obligations.DirectModesResolve : Prop :=
  ∀ (s : State) (v z lo hi : Byte),
    ((effectiveAddress (.immediate v) s).toNat = (s.pc.toNat + 1) % 65536 ∧
      (s.readByte (s.pc + 1) = v →
        operandValue (.immediate v) s = s.readByte (effectiveAddress (.immediate v) s)) ∧
      operandValue (.immediate v) s = v ∧ pageCross (.immediate v) s = false) ∧
    ((effectiveAddress (.zeroPage z) s).toNat = z.toNat ∧
      operandValue (.zeroPage z) s = s.readByte (effectiveAddress (.zeroPage z) s) ∧
      pageCross (.zeroPage z) s = false) ∧
    ((effectiveAddress (.absolute (joinBytes hi lo)) s).toNat = 256 * hi.toNat + lo.toNat ∧
      operandValue (.absolute (joinBytes hi lo)) s =
        s.readByte (effectiveAddress (.absolute (joinBytes hi lo)) s) ∧
      pageCross (.absolute (joinBytes hi lo)) s = false)

/-- The address is (operand byte + X) modulo 256, respectively (operand byte + Y) modulo 256; the value is the byte
there; no page cross is reported. (Rules: R97; R98.) -/
def Obligations.ZeroPageIndexedModesWrapInPageZero : Prop :=
  ∀ (s : State) (z : Byte),
    ((effectiveAddress (.zeroPageX z) s).toNat = (z.toNat + s.x.toNat) % 256 ∧
      operandValue (.zeroPageX z) s = s.readByte (effectiveAddress (.zeroPageX z) s) ∧
      pageCross (.zeroPageX z) s = false) ∧
    ((effectiveAddress (.zeroPageY z) s).toNat = (z.toNat + s.y.toNat) % 256 ∧
      operandValue (.zeroPageY z) s = s.readByte (effectiveAddress (.zeroPageY z) s) ∧
      pageCross (.zeroPageY z) s = false)

/-- The address is (base + X) modulo 65536, respectively (base + Y); the value is the byte there; a page cross is
reported exactly when the address divided by 256 is not the base divided by 256. (Rules: R100; R101.) -/
def Obligations.AbsoluteIndexedModesReportPageCross : Prop :=
  ∀ (s : State) (w : Word),
    ((effectiveAddress (.absoluteX w) s).toNat = (w.toNat + s.x.toNat) % 65536 ∧
      operandValue (.absoluteX w) s = s.readByte (effectiveAddress (.absoluteX w) s) ∧
      (pageCross (.absoluteX w) s = true ↔ (w.toNat + s.x.toNat) % 65536 / 256 ≠ w.toNat / 256)) ∧
    ((effectiveAddress (.absoluteY w) s).toNat = (w.toNat + s.y.toNat) % 65536 ∧
      operandValue (.absoluteY w) s = s.readByte (effectiveAddress (.absoluteY w) s) ∧
      (pageCross (.absoluteY w) s = true ↔ (w.toNat + s.y.toNat) % 65536 / 256 ≠ w.toNat / 256))

/-- IndexedIndirectX: the pointer is at z = (operand + X) modulo 256, its high byte at (z + 1) modulo 256, and no
page cross is reported. IndirectIndexedY: the base is the pointer at the operand byte fetched the same way, the
address is (base + Y) modulo 65536, and a page cross is reported exactly when the high byte changes. In both the
value is the byte at the address. (Rules: R103; R104.) -/
def Obligations.ZeroPagePointerModesResolve : Prop :=
  ∀ (s : State) (z : Byte),
    let word := fun k : Nat => 256 * (s.memRead ((k + 1) % 256)).toNat + (s.memRead k).toNat
    let base := word z.toNat
    let target := (base + s.y.toNat) % 65536
    ((effectiveAddress (.indexedIndirectX z) s).toNat = word ((z.toNat + s.x.toNat) % 256) ∧
      operandValue (.indexedIndirectX z) s = s.readByte (effectiveAddress (.indexedIndirectX z) s) ∧
      pageCross (.indexedIndirectX z) s = false) ∧
    ((effectiveAddress (.indirectIndexedY z) s).toNat = target ∧
      operandValue (.indirectIndexedY z) s = s.readByte (effectiveAddress (.indirectIndexedY z) s) ∧
      (pageCross (.indirectIndexedY z) s = true ↔ target / 256 ≠ base / 256))

/-- The successor of a pointer keeps its page and increments its low byte modulo 256. The Indirect address is the
word whose low byte is at the pointer and whose high byte is at that successor; the resolver gives no value and
no page cross. (Rules: R65; R102.) -/
def Obligations.IndirectTargetWrapsInThePage : Prop :=
  ∀ (s : State) (ptr : Word),
    let succ := 256 * (ptr.toNat / 256) + (ptr.toNat + 1) % 256
    (nextInPage ptr).toNat = succ ∧
    (indirectTarget ptr s).toNat = 256 * (s.memRead succ).toNat + (s.memRead ptr.toNat).toNat ∧
    resolve (.indirect ptr) s = { val := none, ea := some (indirectTarget ptr s), cross := false }

/-- The Relative address is (PC + 2 + d) modulo 65536 where d is the displacement byte read as two's complement; the
resolver gives no value and no page cross. (Rules: R105.) -/
def Obligations.RelativeTargetIsSigned : Prop :=
  ∀ (s : State) (d : Byte),
    ((relativeTarget d s).toNat : Int) =
      ((s.pc.toNat : Int) + 2 + (if d.toNat < 128 then (d.toNat : Int) else (d.toNat : Int) - 256)) % 65536 ∧
    resolve (.relative d) s = { val := none, ea := some (relativeTarget d s), cross := false }

/-- For every byte: the pushed copy has B and bit 5 set and the other six flags as they were; the pulled value has B
clear, bit 5 set and the other six from the byte; and pulling what was pushed gives (p and 0xCF) or 0x20.
(Rules: R29; R30; R31.) -/
def Obligations.StatusTransformsForceTheirBits : Prop :=
  ∀ p : Byte,
    (getFlag (statusForPush p) .b = true ∧ getFlag (statusForPush p) .u = true ∧
      FlagsKept [.b, .u] p (statusForPush p)) ∧
    (getFlag (restoreFromPull p) .b = false ∧ getFlag (restoreFromPull p) .u = true ∧
      FlagsKept [.b, .u] p (restoreFromPull p)) ∧
    restoreFromPull (statusForPush p) = (p &&& 0xCF) ||| 0x20

/-- For all bytes and carry-in: result plus 256 times carry is the exact sum, and overflow holds exactly when the
sum of the two operands read as two's complement plus the carry-in lies outside -128 to 127. (Rests on:
40_add_subtract.md section 1; 95_test_vectors.md section 1.4.) -/
def Obligations.AddOverflowIsSignedRange : Prop :=
  ∀ (a b : Byte) (c : Bool),
    (addCore a b c).result.toNat + 256 * (addCore a b c).carry.toNat = a.toNat + b.toNat + c.toNat ∧
    ((addCore a b c).overflow = true ↔
      a.toInt + b.toInt + (c.toNat : Int) < -128 ∨ 127 < a.toInt + b.toInt + (c.toNat : Int))

/-- For ADC in each of its modes, with m the resolved byte and sum = A + m + C: a next state in which A is sum
modulo 256, C is set iff sum is at least 256, V iff A and m have one sign and the result the other, Z and N are
those of the result, U, B, D, I are kept, PC advances by the mode's length, and every other register and all of
memory is unchanged. (Rules: R140; R141.) -/
def Obligations.AdcAddsWithCarry : Prop :=
  ∀ (i : Instr) (d : DataOperand) (s : State), i.mnemonic = .adc → i.operand = .data d →
    let m := operandValue d s
    let sum := s.a.toNat + m.toNat + (getFlag s.p .c).toNat
    NextWith i s fun t =>
      t = { s with
        a := BitVec.ofNat 8 sum, p := t.p, pc := s.pc + BitVec.ofNat 16 d.mode.length, out := t.out } ∧
      (getFlag t.p .c = true ↔ 256 ≤ sum) ∧
      (getFlag t.p .v = true ↔ s.a.msb = m.msb ∧ t.a.msb ≠ s.a.msb) ∧
      NZOf t.a t.p ∧ FlagsKept [.c, .v, .z, .n] s.p t.p

/-- For SBC in each of its modes, with m the resolved byte and diff = A - m - (1 - C): a next state in which A is
diff modulo 256, C is set iff diff is not negative, V iff the signed difference lies outside -128 to 127, Z and
N are those of the result, the other flags are kept, PC advances by the mode's length, and every other register
and all of memory is unchanged. That C is fed unchanged is the spec's decision D4. (Rests on: 40_add_subtract.md
section 2; 92_eei_decisions.md D4.) -/
def Obligations.SbcSubtractsWithBorrow : Prop :=
  ∀ (i : Instr) (d : DataOperand) (s : State), i.mnemonic = .sbc → i.operand = .data d →
    let m := operandValue d s
    let borrow : Int := 1 - ((getFlag s.p .c).toNat : Int)
    let diff : Int := (s.a.toNat : Int) - m.toNat - borrow
    let signed : Int := s.a.toInt - m.toInt - borrow
    NextWith i s fun t =>
      t = { s with
        a := BitVec.ofInt 8 diff, p := t.p, pc := s.pc + BitVec.ofNat 16 d.mode.length, out := t.out } ∧
      (getFlag t.p .c = true ↔ 0 ≤ diff) ∧ (getFlag t.p .v = true ↔ signed < -128 ∨ 127 < signed) ∧
      NZOf t.a t.p ∧ FlagsKept [.c, .v, .z, .n] s.p t.p

/-- For LDA in each of its modes: a next state in which A is the resolved byte, Z and N are those of that byte, C,
V, D, I, B, U are kept, PC advances by the mode's length, and every other register and all of memory is
unchanged. (Rules: R150.) -/
def Obligations.LdaLoadsTheOperand : Prop :=
  ∀ (i : Instr) (d : DataOperand) (s : State), i.mnemonic = .lda → i.operand = .data d →
    NextWith i s fun t =>
      t = { s with
        a := operandValue d s, p := t.p, pc := s.pc + BitVec.ofNat 16 d.mode.length, out := t.out } ∧
      NZOf (operandValue d s) t.p ∧ FlagsKept [.z, .n] s.p t.p

/-- For LDX and LDY in each of their modes: a next state in which X, respectively Y, is the resolved byte, Z and N
are those of that byte, the other flags are kept, PC advances by the mode's length, and every other register and
all of memory is unchanged. The operations are the spec's decision D17. (Rests on: 41_load_store_transfer.md
section 1; 92_eei_decisions.md D17.) -/
def Obligations.LdxAndLdyLoadTheOperand : Prop :=
  ∀ (i : Instr) (d : DataOperand) (s : State), i.operand = .data d →
    (i.mnemonic = .ldx → NextWith i s fun t =>
      t = { s with
        x := operandValue d s, p := t.p, pc := s.pc + BitVec.ofNat 16 d.mode.length, out := t.out } ∧
      NZOf (operandValue d s) t.p ∧ FlagsKept [.z, .n] s.p t.p) ∧
    (i.mnemonic = .ldy → NextWith i s fun t =>
      t = { s with
        y := operandValue d s, p := t.p, pc := s.pc + BitVec.ofNat 16 d.mode.length, out := t.out } ∧
      NZOf (operandValue d s) t.p ∧ FlagsKept [.z, .n] s.p t.p)

/-- For STA, STX and STY in each of their modes, from canonical memory: a next state in which the cell at the
effective address reads as A, X, respectively Y, every other cell reads as before, PC advances by the mode's
length, and every register and flag is unchanged. The operations are the spec's decision D17. (Rests on:
41_load_store_transfer.md section 2; 92_eei_decisions.md D17.) -/
def Obligations.StoresWriteOneCell : Prop :=
  ∀ (i : Instr) (d : DataOperand) (v : Byte) (s : State), s.Inv → i.operand = .data d →
    (i.mnemonic, v) ∈ [(Mnemonic.sta, s.a), (.stx, s.x), (.sty, s.y)] →
    NextWith i s fun t =>
      t = { s with mem := t.mem, pc := s.pc + BitVec.ofNat 16 d.mode.length, out := t.out } ∧
      t.readByte (effectiveAddress d s) = v ∧ CellsKept [effectiveAddress d s] s t

/-- For each transfer: a next state in which the destination register holds the source's byte, PC is PC + 1, and
every other register and all of memory is unchanged; Z and N are those of the byte and the other flags kept, but
TXS keeps all of P. The operations are the spec's decisions D16 and D17. (Rests on: 41_load_store_transfer.md
section 3; 92_eei_decisions.md D16, D17.) -/
def Obligations.TransfersCopyARegister : Prop :=
  ∀ s : State,
    (NextWith .tax s fun t => t = { s with x := s.a, p := t.p, pc := s.pc + 1, out := t.out } ∧
      NZOf s.a t.p ∧ FlagsKept [.z, .n] s.p t.p) ∧
    (NextWith .tay s fun t => t = { s with y := s.a, p := t.p, pc := s.pc + 1, out := t.out } ∧
      NZOf s.a t.p ∧ FlagsKept [.z, .n] s.p t.p) ∧
    (NextWith .txa s fun t => t = { s with a := s.x, p := t.p, pc := s.pc + 1, out := t.out } ∧
      NZOf s.x t.p ∧ FlagsKept [.z, .n] s.p t.p) ∧
    (NextWith .tya s fun t => t = { s with a := s.y, p := t.p, pc := s.pc + 1, out := t.out } ∧
      NZOf s.y t.p ∧ FlagsKept [.z, .n] s.p t.p) ∧
    (NextWith .tsx s fun t => t = { s with x := s.sp, p := t.p, pc := s.pc + 1, out := t.out } ∧
      NZOf s.sp t.p ∧ FlagsKept [.z, .n] s.p t.p) ∧
    NextWith .txs s fun t => t = { s with sp := s.x, pc := s.pc + 1, out := t.out }

/-- For AND, ORA and EOR in each of their modes: a next state in which bit k of A is the conjunction, disjunction,
respectively exclusive or of bit k of A and of the resolved byte, Z and N are those of the result, the other
flags are kept, PC advances by the mode's length, and every other register and all of memory is unchanged. ORA
and EOR are the spec's decision D17. (Rests on: 42_logic_incdec.md section 1; 92_eei_decisions.md D17.) -/
def Obligations.LogicActsBitwiseOnA : Prop :=
  ∀ (i : Instr) (d : DataOperand) (f : Bool → Bool → Bool) (s : State), i.operand = .data d →
    ((i.mnemonic = .and ∧ f = and) ∨ (i.mnemonic = .ora ∧ f = or) ∨ (i.mnemonic = .eor ∧ f = xor)) →
    NextWith i s fun t =>
      t = { s with a := t.a, p := t.p, pc := s.pc + BitVec.ofNat 16 d.mode.length, out := t.out } ∧
      (∀ k < 8, t.a.getLsbD k = f (s.a.getLsbD k) ((operandValue d s).getLsbD k)) ∧
      NZOf t.a t.p ∧ FlagsKept [.z, .n] s.p t.p

/-- For BIT in both of its modes: a next state in which Z is set iff A and the resolved byte have no common bit, N
is the byte's bit 7 and V its bit 6, the other flags are kept, PC advances by the mode's length, and A, every
other register and all of memory is unchanged. The operation is the spec's decision D17. (Rests on:
42_logic_incdec.md section 1 (BIT); 92_eei_decisions.md D17.) -/
def Obligations.BitTestsTheOperand : Prop :=
  ∀ (i : Instr) (d : DataOperand) (s : State), i.mnemonic = .bit → i.operand = .data d →
    NextWith i s fun t =>
      t = { s with p := t.p, pc := s.pc + BitVec.ofNat 16 d.mode.length, out := t.out } ∧
      (getFlag t.p .z = true ↔ s.a &&& operandValue d s = 0) ∧
      getFlag t.p .n = (operandValue d s).getLsbD 7 ∧ getFlag t.p .v = (operandValue d s).getLsbD 6 ∧
      FlagsKept [.z, .n, .v] s.p t.p

/-- For INC and DEC in each of their modes, from canonical memory: a next state in which the cell at the effective
address reads as its byte plus one, respectively minus one, modulo 256, every other cell reads as before, Z and
N are those of the new byte, the other flags (C and V among them) are kept, PC advances by the mode's length,
and every other register is unchanged. The operations are the spec's decisions D12 and D17. (Rests on:
42_logic_incdec.md section 2; 92_eei_decisions.md D12, D17.) -/
def Obligations.IncAndDecChangeOneCell : Prop :=
  ∀ (i : Instr) (d : DataOperand) (k : Nat) (s : State), s.Inv → i.operand = .data d →
    (i.mnemonic, k) ∈ [(Mnemonic.inc, 1), (.dec, 255)] →
    let new := BitVec.ofNat 8 ((s.readByte (effectiveAddress d s)).toNat + k)
    NextWith i s fun t =>
      t = { s with mem := t.mem, p := t.p, pc := s.pc + BitVec.ofNat 16 d.mode.length, out := t.out } ∧
      t.readByte (effectiveAddress d s) = new ∧ CellsKept [effectiveAddress d s] s t ∧
      NZOf new t.p ∧ FlagsKept [.z, .n] s.p t.p

/-- For each: a next state in which X, respectively Y, is one more or one less modulo 256, Z and N are those of the
new value, the other flags (C and V among them) are kept, PC is PC + 1, and every other register and all of
memory is unchanged. The operations are the spec's decision D17. (Rests on: 42_logic_incdec.md section 3;
92_eei_decisions.md D17.) -/
def Obligations.IndexRegistersCountByOne : Prop :=
  ∀ s : State,
    (∀ v, v = BitVec.ofNat 8 (s.x.toNat + 1) → NextWith .inx s fun t =>
      t = { s with x := v, p := t.p, pc := s.pc + 1, out := t.out } ∧ NZOf v t.p ∧ FlagsKept [.z, .n] s.p t.p) ∧
    (∀ v, v = BitVec.ofNat 8 (s.y.toNat + 1) → NextWith .iny s fun t =>
      t = { s with y := v, p := t.p, pc := s.pc + 1, out := t.out } ∧ NZOf v t.p ∧ FlagsKept [.z, .n] s.p t.p) ∧
    (∀ v, v = BitVec.ofNat 8 (s.x.toNat + 255) → NextWith .dex s fun t =>
      t = { s with x := v, p := t.p, pc := s.pc + 1, out := t.out } ∧ NZOf v t.p ∧ FlagsKept [.z, .n] s.p t.p) ∧
    ∀ v, v = BitVec.ofNat 8 (s.y.toNat + 255) → NextWith .dey s fun t =>
      t = { s with y := v, p := t.p, pc := s.pc + 1, out := t.out } ∧ NZOf v t.p ∧ FlagsKept [.z, .n] s.p t.p

/-- For the four shifts in Accumulator mode: a next state in which A is 2A, A/2, 2A + C, respectively A/2 + 128C
modulo 256, C is the bit shifted off, Z and N are those of the result, the other flags (V among them) are kept,
PC is PC + 1, and every other register and all of memory is unchanged. Directions and fill are the spec's
decision D17. (Rests on: 43_shift_rotate.md; 92_eei_decisions.md D17.) -/
def Obligations.ShiftsInAccumulatorModeChangeA : Prop :=
  ∀ (i : Instr) (r : Nat) (c : Bool) (s : State), i.operand = .accumulator →
    shiftOf i.mnemonic s.a.toNat (getFlag s.p .c) = some (r, c) →
    NextWith i s fun t =>
      t = { s with a := BitVec.ofNat 8 r, p := t.p, pc := s.pc + 1, out := t.out } ∧
      getFlag t.p .c = c ∧ NZOf (BitVec.ofNat 8 r) t.p ∧ FlagsKept [.c, .z, .n] s.p t.p

/-- For the four shifts in each memory mode, from canonical memory: a next state in which the cell at the effective
address reads as its byte moved one place as in Accumulator mode, every other cell reads as before, C is the bit
shifted off, Z and N are those of the result, the other flags are kept, PC advances by the mode's length, and A
and every other register is unchanged. Directions and fill are the spec's decision D17, the single write D12.
(Rests on: 43_shift_rotate.md; 92_eei_decisions.md D12, D17.) -/
def Obligations.ShiftsInMemoryModesChangeOneCell : Prop :=
  ∀ (i : Instr) (d : DataOperand) (r : Nat) (c : Bool) (s : State), s.Inv → i.operand = .data d →
    shiftOf i.mnemonic (s.readByte (effectiveAddress d s)).toNat (getFlag s.p .c) = some (r, c) →
    NextWith i s fun t =>
      t = { s with mem := t.mem, p := t.p, pc := s.pc + BitVec.ofNat 16 d.mode.length, out := t.out } ∧
      t.readByte (effectiveAddress d s) = BitVec.ofNat 8 r ∧ CellsKept [effectiveAddress d s] s t ∧
      getFlag t.p .c = c ∧ NZOf (BitVec.ofNat 8 r) t.p ∧ FlagsKept [.c, .z, .n] s.p t.p

/-- For each of the eight branches and every displacement: a next state in which PC is the relative target if the
branch's condition holds and PC + 2 if not, the step's output is 2 cycles and no warning either way, and every
register, flag and memory cell is unchanged. Flag and polarity of each mnemonic are the spec's decision D17, the
base count 2 its decision D8; that State holds the step's output is the model's choice (log entry 5). (Rests on:
44_branch_jump.md section 1; 70_reset_and_hazards.md section 3; 92_eei_decisions.md D8, D17.) -/
def Obligations.BranchesFollowTheirFlag : Prop :=
  ∀ (i : Instr) (d : Byte) (cond : Bool) (s : State), i.operand = .relative d →
    branchCondition s.p i.mnemonic = some cond →
    NextWith i s fun t =>
      t = { s with pc := if cond then relativeTarget d s else s.pc + 2, out := t.out } ∧
      t.out = { cycles := 2, warnings := [] }

/-- For JMP in Absolute mode PC becomes the operand, in Indirect mode the word stored at the operand with the high
byte from the same page; every register, flag and memory cell is unchanged. (Rules: R209.) -/
def Obligations.JmpGoesToTheResolvedAddress : Prop :=
  ∀ (w : Word) (s : State),
    (NextWith (.jmpAbs w) s fun t => t = { s with pc := w, out := t.out }) ∧
    NextWith (.jmpInd w) s fun t =>
      t = { s with pc := t.pc, out := t.out } ∧
      t.pc.toNat =
        256 * (s.memRead (256 * (w.toNat / 256) + (w.toNat + 1) % 256)).toNat + (s.memRead w.toNat).toNat

/-- From canonical memory, for every byte and every S: the push writes the byte at 0x0100 + S and no other cell and
leaves S - 1 modulo 256; the pop after it returns the byte, restores S and leaves memory as the push left it.
The order is the spec's decision D5. (Rests on: 20_memory.md section 4; 92_eei_decisions.md D5.) -/
def Obligations.PopUndoesPush : Prop :=
  ∀ (s : State) (v : Byte), s.Inv →
    (s.push v).sp.toNat = (s.sp.toNat + 255) % 256 ∧ (s.push v).memRead (0x0100 + s.sp.toNat) = v ∧
    CellsKept [slot s.sp] s (s.push v) ∧
    (s.push v).pop.1 = v ∧ (s.push v).pop.2.sp = s.sp ∧ (s.push v).pop.2.mem = (s.push v).mem

/-- From canonical memory: a next state in which the cell at 0x0100 + S reads as A for PHA and as P or 0x30 for PHP,
every other cell reads as before, S is S - 1 modulo 256, PC is PC + 1, and every other register, P included, is
unchanged. The order of a push is the spec's decision D5. (Rests on: 45_stack_subroutine_interrupt.md section 1;
20_memory.md section 4; 92_eei_decisions.md D5.) -/
def Obligations.PhaAndPhpPushOneByte : Prop :=
  ∀ (i : Instr) (v : Byte) (s : State), s.Inv → (i, v) ∈ [(Instr.pha, s.a), (.php, s.p ||| 0x30)] →
    NextWith i s fun t =>
      t = { s with mem := t.mem, sp := s.sp - 1, pc := s.pc + 1, out := t.out } ∧
      t.readByte (slot s.sp) = v ∧ CellsKept [slot s.sp] s t

/-- With b the byte at 0x0100 + (S + 1 modulo 256): a next state with S + 1 modulo 256 and PC + 1 in which PLA makes
A b with Z and N those of b and the other flags kept, PLP makes P (b and 0xEF) or 0x20, and every other register
and all of memory is unchanged. The order of a pop is the spec's decision D5, the N/Z update of PLA D6. (Rests
on: 45_stack_subroutine_interrupt.md section 1; 20_memory.md section 4; 92_eei_decisions.md D5, D6.) -/
def Obligations.PlaAndPlpPullOneByte : Prop :=
  ∀ s : State,
    let b := s.readByte (slot (s.sp + 1))
    (NextWith .pla s fun t =>
      t = { s with a := b, sp := s.sp + 1, p := t.p, pc := s.pc + 1, out := t.out } ∧
      NZOf b t.p ∧ FlagsKept [.z, .n] s.p t.p) ∧
    NextWith .plp s fun t =>
      t = { s with sp := s.sp + 1, p := (b &&& 0xEF) ||| 0x20, pc := s.pc + 1, out := t.out }

/-- From canonical memory, for every target: a next state in which the cells at the slots S and S - 1 read as the
high and the low byte of PC + 2, every other cell reads as before, S is S - 2 modulo 256, PC is the target, and
every other register is unchanged. The order of the pushes is the spec's decisions D5, D6 and D24. (Rests on:
45_stack_subroutine_interrupt.md section 2; 92_eei_decisions.md D5, D6, D24.) -/
def Obligations.JsrPushesTheReturnAddress : Prop :=
  ∀ (w : Word) (s : State), s.Inv →
    NextWith (.jsr w) s fun t =>
      t = { s with mem := t.mem, sp := s.sp - 2, pc := w, out := t.out } ∧
      t.readByte (slot s.sp) = hiByte (s.pc + 2) ∧ t.readByte (slot (s.sp - 1)) = loByte (s.pc + 2) ∧
      CellsKept [slot s.sp, slot (s.sp - 1)] s t

/-- RTS: a next state in which PC is the word at the slots S + 2 : S + 1 plus one and S is S + 2. RTI: P is the byte
at the slot S + 1 with bit 4 clear and bit 5 set, PC is the word at the slots S + 3 : S + 2, S is S + 3. All
modulo 256 for S and 65536 for PC; every other register and all of memory is unchanged. The pop order is the
spec's decisions D5 and D6. (Rests on: 45_stack_subroutine_interrupt.md sections 2 and 3; 92_eei_decisions.md
D5, D6.) -/
def Obligations.RtsAndRtiPopTheReturnAddress : Prop :=
  ∀ s : State,
    let b := fun k : Byte => s.readByte (slot (s.sp + k))
    (NextWith .rts s fun t => t = { s with sp := s.sp + 2, pc := joinBytes (b 2) (b 1) + 1, out := t.out }) ∧
    NextWith .rti s fun t =>
      t = { s with
        sp := s.sp + 3, p := (b 1 &&& 0xEF) ||| 0x20, pc := joinBytes (b 3) (b 2), out := t.out }

/-- From canonical memory, trap entry under each of the four policies, and BRK under the machine's: a next state in
which the cells at the slots S, S - 1, S - 2 read as the high and low byte of PC + 2 and P or 0x30 with P as it
was, every other cell reads as before, S is S - 3, P has I set and every other bit kept, PC is unchanged (hold),
PC + 1 (advance1), the word at 0xFFFE (vector) or stuck (unspecified), and A, X, Y are unchanged. Push order and
the kept live B are the spec's decisions D5 and D21; the policy is its parameter of D2. (Rests on:
45_stack_subroutine_interrupt.md section 3; 60_exceptions.md section 3; 92_eei_decisions.md D2, D5, D21.) -/
def Obligations.BrkEntersTheTrap : Prop :=
  (∀ (policy : BrkPcPolicy) (s : State), s.Inv → BreakEntered policy s (s.takeBreak policy)) ∧
    ∀ s : State, s.Inv → NextWith .brk s (BreakEntered Config.brkPcPolicy s)

/-- From canonical memory: PHP and then PLP complete, and P is then (P and 0xCF) or 0x20, S is as before, PC is PC +
2, and A, X, Y are unchanged. (Rests on: 95_test_vectors.md section 1.9; 45_stack_subroutine_interrupt.md
section 1; 92_eei_decisions.md D5.) -/
def Obligations.PlpAfterPhpIsAsymmetric : Prop :=
  ∀ s : State, s.Inv →
    NextWith .php s fun t => NextWith .plp t fun u =>
      u.p = (s.p &&& 0xCF) ||| 0x20 ∧ u.sp = s.sp ∧ u.pc = s.pc + 2 ∧ u.a = s.a ∧ u.x = s.x ∧ u.y = s.y

/-- From canonical memory, for every target: JSR completes with PC at the target, and RTS in any state with the
memory and S that the JSR left completes with PC = the JSR's address + 3 and S as before the JSR. (Rests on:
45_stack_subroutine_interrupt.md section 2; 70_reset_and_hazards.md section 2 item 6; 92_eei_decisions.md D5,
D6.) -/
def Obligations.RtsReturnsBehindTheJsr : Prop :=
  ∀ (w : Word) (s : State), s.Inv →
    NextWith (.jsr w) s fun t => t.pc = w ∧
      ∀ u : State, u.mem = t.mem → u.sp = t.sp → NextWith .rts u fun r => r.pc = s.pc + 3 ∧ r.sp = s.sp

/-- From canonical memory: BRK completes, and RTI in any state with the memory and S that the BRK left completes
with PC = the BRK's address + 2, P = (P before the BRK and 0xCF) or 0x20, and S as before the BRK, whatever the
BRK's PC policy. (Rests on: 45_stack_subroutine_interrupt.md section 3; 70_reset_and_hazards.md section 2 item
5; 92_eei_decisions.md D5, D6.) -/
def Obligations.RtiReturnsPastTheBrkPadding : Prop :=
  ∀ s : State, s.Inv →
    NextWith .brk s fun t =>
      ∀ u : State, u.mem = t.mem → u.sp = t.sp →
        NextWith .rti u fun r => r.pc = s.pc + 2 ∧ r.p = (s.p &&& 0xCF) ||| 0x20 ∧ r.sp = s.sp

/-- For each compare in each of its modes, with reg the register and m the resolved byte: a next state in which C is
set iff reg >= m unsigned, Z iff reg = m, N is bit 7 of (reg - m) modulo 256, V and the other flags are kept, PC
advances by the mode's length, and every register and all of memory is unchanged. The carry-in of 1 is the
spec's decision D17. (Rests on: 46_compare.md; 92_eei_decisions.md D17.) -/
def Obligations.ComparesOrderUnsigned : Prop :=
  ∀ (i : Instr) (d : DataOperand) (reg : Byte) (s : State), i.operand = .data d →
    (i.mnemonic, reg) ∈ [(Mnemonic.cmp, s.a), (.cpx, s.x), (.cpy, s.y)] →
    let m := operandValue d s
    NextWith i s fun t =>
      t = { s with p := t.p, pc := s.pc + BitVec.ofNat 16 d.mode.length, out := t.out } ∧
      (getFlag t.p .c = true ↔ m.toNat ≤ reg.toNat) ∧ (getFlag t.p .z = true ↔ reg = m) ∧
      (getFlag t.p .n = true ↔ 128 ≤ (reg.toNat + 256 - m.toNat) % 256) ∧ FlagsKept [.c, .z, .n] s.p t.p

/-- For each flag instruction: a next state in which its one flag has its value, the other seven bits of P are kept,
PC is PC + 1, and every other register and all of memory is unchanged. NOP only moves PC to PC + 1. The
operations are the spec's decision D17. (Rests on: 47_flag_nop.md; 92_eei_decisions.md D17.) -/
def Obligations.FlagInstructionsWriteOneBit : Prop :=
  ∀ s : State,
    (∀ (i : Instr) (f : Flag) (bit : Bool),
      (i, f, bit) ∈ [(Instr.clc, Flag.c, false), (.sec, .c, true), (.cli, .i, false), (.sei, .i, true),
        (.cld, .d, false), (.sed, .d, true), (.clv, .v, false)] →
      NextWith i s fun t => t = { s with p := t.p, pc := s.pc + 1, out := t.out } ∧
        getFlag t.p f = bit ∧ FlagsKept [f] s.p t.p) ∧
    NextWith .nop s fun t => t = { s with pc := s.pc + 1, out := t.out }

/-- From every state: if live B is 0 it is 0 after a step, and if live bit 5 is 1 it is 1 after a step, whatever the
instruction. That the two bits are storage is the spec's decisions D20 and D21. (Rests on: 10_state.md section
3; 92_eei_decisions.md D20, D21.) -/
def Obligations.NoStepSetsBOrClearsBit5 : Prop :=
  ∀ s t : State, step s = .next t →
    (getFlag s.p .b = false → getFlag t.p .b = false) ∧ (getFlag s.p .u = true → getFlag t.p .u = true)

/-- From canonical memory, if running an instruction changes how an address reads, then either the instruction is
STA, STX, STY, INC, DEC or a shift and the address is the effective address of its operand, or it is PHA, PHP,
JSR or BRK and the address lies in page 1. (Rests on: 20_memory.md section 5; 92_eei_decisions.md D12, D17.) -/
def Obligations.OnlyListedInstructionsWriteMemory : Prop :=
  ∀ (i : Instr) (s t : State) (a : Word), s.Inv → exec i s = .next t → t.readByte a ≠ s.readByte a →
    (i.mnemonic ∈ [Mnemonic.sta, .stx, .sty, .inc, .dec, .asl, .lsr, .rol, .ror] ∧
      ∃ d, i.operand = .data d ∧ a = effectiveAddress d s) ∨
    (i.mnemonic ∈ [Mnemonic.pha, .php, .jsr, .brk] ∧ 0x0100 ≤ a.toNat ∧ a.toNat < 0x0200)

/-- If running an instruction changes A, X, Y, respectively S, then its mnemonic is one of those the register's list
names as writing it, and for A a shift is in Accumulator mode. (Rests on: 10_state.md section 1 (the lists of A,
X, Y and S); 92_eei_decisions.md D17.) -/
def Obligations.OnlyListedInstructionsWriteRegisters : Prop :=
  ∀ (i : Instr) (s t : State), exec i s = .next t →
    (t.a ≠ s.a → i.mnemonic ∈ [Mnemonic.adc, .sbc, .and, .ora, .eor, .lda, .pla, .txa, .tya] ∨
      (i.mnemonic ∈ [Mnemonic.asl, .lsr, .rol, .ror] ∧ i.operand = .accumulator)) ∧
    (t.x ≠ s.x → i.mnemonic ∈ [Mnemonic.ldx, .tax, .tsx, .inx, .dex]) ∧
    (t.y ≠ s.y → i.mnemonic ∈ [Mnemonic.ldy, .tay, .iny, .dey]) ∧
    (t.sp ≠ s.sp → i.mnemonic ∈ [Mnemonic.pha, .php, .pla, .plp, .jsr, .rts, .brk, .rti, .txs])

/-- If running an instruction changes a bit of P, then its mnemonic is one of those the table lists as writing that
bit. (Rests on: 10_state.md section 3 (the table of P, column written by); 92_eei_decisions.md D17.) -/
def Obligations.OnlyListedInstructionsWriteFlags : Prop :=
  ∀ (i : Instr) (s t : State) (f : Flag), exec i s = .next t → getFlag t.p f ≠ getFlag s.p f →
    i.mnemonic ∈ flagWriters f

/-- For every instruction but PHP and BRK, changing bit 5, B, D or I of P before it changes nothing after it except
at most that same bit: the decimal flag does not enter ADC and SBC, and I masks nothing. These are the spec's
decisions D3 and D14. (Rests on: 10_state.md section 3 (the table of P, column read by); 40_add_subtract.md
section 2 (the decimal flag); 92_eei_decisions.md D3, D14.) -/
def Obligations.UnreadFlagsDoNotInfluence : Prop :=
  ∀ (i : Instr) (s t : State) (f : Flag) (bit : Bool), f ∈ [Flag.u, .b, .d, .i] → i ≠ .php → i ≠ .brk →
    exec i s = .next t →
    NextWith i { s with p := setFlag s.p f bit } fun t' =>
      t' = { t with p := t'.p } ∧ FlagsKept [f] t.p t'.p

/-- For every instruction outside the control-flow set, PC after it is PC plus the number of bytes of its encoding,
modulo 65536. (Rests on: 30_encoding.md section 4 (PC advance); 95_test_vectors.md section 1.2;
92_eei_decisions.md D2.) -/
def Obligations.PcAdvancesOverTheEncodedBytes : Prop :=
  ∀ (i : Instr) (s t : State), i.mnemonic ∉ controlFlow → exec i s = .next t →
    t.pc = s.pc + BitVec.ofNat 16 (encode i).length

/-- For every instruction, the cycle count in the step's output is the base count of its mnemonic and mode plus one
exactly when the resolver reports a page cross. The numbers and the uniform penalty are the spec's decisions D8
and D9; that State holds the output is log entry 5. (Rests on: 70_reset_and_hazards.md section 3; 30_encoding.md
section 4; 92_eei_decisions.md D8, D9.) -/
def Obligations.CyclesAreBasePlusPageCross : Prop :=
  ∀ (i : Instr) (s t : State), exec i s = .next t →
    t.out.cycles = baseCycles i.mnemonic i.mode + (if (resolve i.operand s).cross then 1 else 0)

/-- For every instruction, with the number of bytes it pushes or pops: the step's warnings are stack_overflow alone
if it pushes more bytes than S, stack_underflow alone if S plus the bytes it pops exceeds 255, else none. The
names are the spec's decision D19; that State holds the output is log entry 5. (Rests on: 20_memory.md section
4; 60_exceptions.md section 2; 92_eei_decisions.md D19.) -/
def Obligations.WarningsAreTheStackWraps : Prop :=
  ∀ (i : Instr) (s t : State), exec i s = .next t →
    t.out.warnings =
      if s.sp.toNat < pushes i.mnemonic then [.stackOverflow]
      else if 255 < s.sp.toNat + pops i.mnemonic then [.stackUnderflow] else []

/-- From every state, if a step gives a next state, then PC is stuck in it if and only if the instruction fetched
was BRK and the machine's BRK_PC_POLICY is unspecified (the parameter has no value a proof may use; log entries
3 and 4). (Rests on: 45_stack_subroutine_interrupt.md section 3; 70_reset_and_hazards.md section 4;
93_implementation_defined.md U2.) -/
def Obligations.PcIsStuckExactlyAfterAnUnspecifiedBrk : Prop :=
  ∀ s t : State, step s = .next t →
    (t.pcStuck = true ↔ s.fetchInstr = some .brk ∧ Config.brkPcPolicy = .unspecified)
end

