-- ==== Sys2Proof/Laws/Flags.lean ====
section
/-! SUPPORT. What each flag computation leaves in each bit of P, and the add/subtract core in the integers. -/

namespace Sys2Proof.Machine

/-- The flag accessor writes the one bit it names. -/
theorem getFlag_setFlag (p : Byte) (f : Flag) (bit : Bool) (g : Flag) :
    getFlag (setFlag p f bit) g = if g = f then bit else getFlag p g := by
  cases f <;> cases g <;> cases bit <;> simp [getFlag, setFlag, Flag.pos]

@[simp] theorem getFlag_setFlag_self (p : Byte) (f : Flag) (bit : Bool) :
    getFlag (setFlag p f bit) f = bit := by simp [getFlag_setFlag]

theorem getFlag_setFlag_ne (p : Byte) {f g : Flag} (h : g ≠ f) (bit : Bool) :
    getFlag (setFlag p f bit) g = getFlag p g := by simp [getFlag_setFlag, h]

/-- A status byte is its eight flags. -/
theorem status_ext {p q : Byte} (h : ∀ f, getFlag p f = getFlag q f) : p = q := by
  apply BitVec.eq_of_getLsbD_eq
  intro k hk
  have := h .n; have := h .v; have := h .u; have := h .b
  have := h .d; have := h .i; have := h .z; have := h .c
  simp only [getFlag, Flag.pos] at *
  interval_cases k <;> assumption

theorem getFlag_setNZ (p v : Byte) (g : Flag) :
    getFlag (setNZ p v) g = match g with
      | .n => v.msb
      | .z => v == 0
      | g => getFlag p g := by
  cases g <;> simp [setNZ, getFlag_setFlag]

theorem getFlag_statusForPush (p : Byte) (g : Flag) :
    getFlag (statusForPush p) g = (decide (g = .b ∨ g = .u) || getFlag p g) := by
  cases g <;> simp [statusForPush, getFlag, Flag.pos]

theorem getFlag_restoreFromPull (b : Byte) (g : Flag) :
    getFlag (restoreFromPull b) g = match g with
      | .b => false
      | .u => true
      | g => getFlag b g := by
  cases g <;> simp [restoreFromPull, getFlag, Flag.pos]

/-- The 9-bit sum of the add core is its result and its carry. -/
theorem addCore_sum (a b : Byte) (c : Bool) :
    (addCore a b c).result.toNat + 256 * (addCore a b c).carry.toNat = a.toNat + b.toNat + c.toNat := by
  have ha := a.isLt
  have hb := b.isLt
  have hc : c.toNat ≤ 1 := by cases c <;> decide
  simp only [addCore, BitVec.toNat_ofNat]
  by_cases h : 256 ≤ a.toNat + b.toNat + c.toNat <;> simp [h] <;> omega

end Sys2Proof.Machine
end

