-- ==== Sys2Proof/Laws/State.lean ====
section
/-! SUPPORT. What each update of the state leaves in each field: one lemma per field per update, so that no
later proof unfolds a record update. -/

namespace Sys2Proof.Machine

@[simp] theorem State.setA_a (s : State) (v : Byte) : (s.setA v).a = v := rfl
@[simp] theorem State.setA_x (s : State) (v : Byte) : (s.setA v).x = s.x := rfl
@[simp] theorem State.setA_y (s : State) (v : Byte) : (s.setA v).y = s.y := rfl
@[simp] theorem State.setA_sp (s : State) (v : Byte) : (s.setA v).sp = s.sp := rfl
@[simp] theorem State.setA_p (s : State) (v : Byte) : (s.setA v).p = s.p := rfl
@[simp] theorem State.setA_pc (s : State) (v : Byte) : (s.setA v).pc = s.pc := rfl
@[simp] theorem State.setA_pcStuck (s : State) (v : Byte) : (s.setA v).pcStuck = s.pcStuck := rfl
@[simp] theorem State.setA_mem (s : State) (v : Byte) : (s.setA v).mem = s.mem := rfl
@[simp] theorem State.setA_out (s : State) (v : Byte) : (s.setA v).out = s.out := rfl
@[simp] theorem State.setA_freeCount (s : State) (v : Byte) : (s.setA v).freeCount = s.freeCount := rfl

@[simp] theorem State.setX_a (s : State) (v : Byte) : (s.setX v).a = s.a := rfl
@[simp] theorem State.setX_x (s : State) (v : Byte) : (s.setX v).x = v := rfl
@[simp] theorem State.setX_y (s : State) (v : Byte) : (s.setX v).y = s.y := rfl
@[simp] theorem State.setX_sp (s : State) (v : Byte) : (s.setX v).sp = s.sp := rfl
@[simp] theorem State.setX_p (s : State) (v : Byte) : (s.setX v).p = s.p := rfl
@[simp] theorem State.setX_pc (s : State) (v : Byte) : (s.setX v).pc = s.pc := rfl
@[simp] theorem State.setX_pcStuck (s : State) (v : Byte) : (s.setX v).pcStuck = s.pcStuck := rfl
@[simp] theorem State.setX_mem (s : State) (v : Byte) : (s.setX v).mem = s.mem := rfl
@[simp] theorem State.setX_out (s : State) (v : Byte) : (s.setX v).out = s.out := rfl
@[simp] theorem State.setX_freeCount (s : State) (v : Byte) : (s.setX v).freeCount = s.freeCount := rfl

@[simp] theorem State.setY_a (s : State) (v : Byte) : (s.setY v).a = s.a := rfl
@[simp] theorem State.setY_x (s : State) (v : Byte) : (s.setY v).x = s.x := rfl
@[simp] theorem State.setY_y (s : State) (v : Byte) : (s.setY v).y = v := rfl
@[simp] theorem State.setY_sp (s : State) (v : Byte) : (s.setY v).sp = s.sp := rfl
@[simp] theorem State.setY_p (s : State) (v : Byte) : (s.setY v).p = s.p := rfl
@[simp] theorem State.setY_pc (s : State) (v : Byte) : (s.setY v).pc = s.pc := rfl
@[simp] theorem State.setY_pcStuck (s : State) (v : Byte) : (s.setY v).pcStuck = s.pcStuck := rfl
@[simp] theorem State.setY_mem (s : State) (v : Byte) : (s.setY v).mem = s.mem := rfl
@[simp] theorem State.setY_out (s : State) (v : Byte) : (s.setY v).out = s.out := rfl
@[simp] theorem State.setY_freeCount (s : State) (v : Byte) : (s.setY v).freeCount = s.freeCount := rfl

@[simp] theorem State.setSp_a (s : State) (v : Byte) : (s.setSp v).a = s.a := rfl
@[simp] theorem State.setSp_x (s : State) (v : Byte) : (s.setSp v).x = s.x := rfl
@[simp] theorem State.setSp_y (s : State) (v : Byte) : (s.setSp v).y = s.y := rfl
@[simp] theorem State.setSp_sp (s : State) (v : Byte) : (s.setSp v).sp = v := rfl
@[simp] theorem State.setSp_p (s : State) (v : Byte) : (s.setSp v).p = s.p := rfl
@[simp] theorem State.setSp_pc (s : State) (v : Byte) : (s.setSp v).pc = s.pc := rfl
@[simp] theorem State.setSp_pcStuck (s : State) (v : Byte) : (s.setSp v).pcStuck = s.pcStuck := rfl
@[simp] theorem State.setSp_mem (s : State) (v : Byte) : (s.setSp v).mem = s.mem := rfl
@[simp] theorem State.setSp_out (s : State) (v : Byte) : (s.setSp v).out = s.out := rfl
@[simp] theorem State.setSp_freeCount (s : State) (v : Byte) : (s.setSp v).freeCount = s.freeCount := rfl

@[simp] theorem State.setP_a (s : State) (v : Byte) : (s.setP v).a = s.a := rfl
@[simp] theorem State.setP_x (s : State) (v : Byte) : (s.setP v).x = s.x := rfl
@[simp] theorem State.setP_y (s : State) (v : Byte) : (s.setP v).y = s.y := rfl
@[simp] theorem State.setP_sp (s : State) (v : Byte) : (s.setP v).sp = s.sp := rfl
@[simp] theorem State.setP_p (s : State) (v : Byte) : (s.setP v).p = v := rfl
@[simp] theorem State.setP_pc (s : State) (v : Byte) : (s.setP v).pc = s.pc := rfl
@[simp] theorem State.setP_pcStuck (s : State) (v : Byte) : (s.setP v).pcStuck = s.pcStuck := rfl
@[simp] theorem State.setP_mem (s : State) (v : Byte) : (s.setP v).mem = s.mem := rfl
@[simp] theorem State.setP_out (s : State) (v : Byte) : (s.setP v).out = s.out := rfl
@[simp] theorem State.setP_freeCount (s : State) (v : Byte) : (s.setP v).freeCount = s.freeCount := rfl

@[simp] theorem State.setPc_a (s : State) (v : Word) : (s.setPc v).a = s.a := rfl
@[simp] theorem State.setPc_x (s : State) (v : Word) : (s.setPc v).x = s.x := rfl
@[simp] theorem State.setPc_y (s : State) (v : Word) : (s.setPc v).y = s.y := rfl
@[simp] theorem State.setPc_sp (s : State) (v : Word) : (s.setPc v).sp = s.sp := rfl
@[simp] theorem State.setPc_p (s : State) (v : Word) : (s.setPc v).p = s.p := rfl
@[simp] theorem State.setPc_pc (s : State) (v : Word) : (s.setPc v).pc = v := rfl
@[simp] theorem State.setPc_pcStuck (s : State) (v : Word) : (s.setPc v).pcStuck = s.pcStuck := rfl
@[simp] theorem State.setPc_mem (s : State) (v : Word) : (s.setPc v).mem = s.mem := rfl
@[simp] theorem State.setPc_out (s : State) (v : Word) : (s.setPc v).out = s.out := rfl
@[simp] theorem State.setPc_freeCount (s : State) (v : Word) : (s.setPc v).freeCount = s.freeCount := rfl

@[simp] theorem State.setCycles_a (s : State) (c : Nat) : (s.setCycles c).a = s.a := rfl
@[simp] theorem State.setCycles_x (s : State) (c : Nat) : (s.setCycles c).x = s.x := rfl
@[simp] theorem State.setCycles_y (s : State) (c : Nat) : (s.setCycles c).y = s.y := rfl
@[simp] theorem State.setCycles_sp (s : State) (c : Nat) : (s.setCycles c).sp = s.sp := rfl
@[simp] theorem State.setCycles_p (s : State) (c : Nat) : (s.setCycles c).p = s.p := rfl
@[simp] theorem State.setCycles_pc (s : State) (c : Nat) : (s.setCycles c).pc = s.pc := rfl
@[simp] theorem State.setCycles_pcStuck (s : State) (c : Nat) : (s.setCycles c).pcStuck = s.pcStuck := rfl
@[simp] theorem State.setCycles_mem (s : State) (c : Nat) : (s.setCycles c).mem = s.mem := rfl
@[simp] theorem State.setCycles_out (s : State) (c : Nat) : (s.setCycles c).out = { cycles := c, warnings := [] } := rfl
@[simp] theorem State.setCycles_freeCount (s : State) (c : Nat) : (s.setCycles c).freeCount = s.freeCount := rfl

@[simp] theorem State.beginStep_a (s : State) (base : Nat) (o : Operand) : (s.beginStep base o).a = s.a := rfl
@[simp] theorem State.beginStep_x (s : State) (base : Nat) (o : Operand) : (s.beginStep base o).x = s.x := rfl
@[simp] theorem State.beginStep_y (s : State) (base : Nat) (o : Operand) : (s.beginStep base o).y = s.y := rfl
@[simp] theorem State.beginStep_sp (s : State) (base : Nat) (o : Operand) : (s.beginStep base o).sp = s.sp := rfl
@[simp] theorem State.beginStep_p (s : State) (base : Nat) (o : Operand) : (s.beginStep base o).p = s.p := rfl
@[simp] theorem State.beginStep_pc (s : State) (base : Nat) (o : Operand) : (s.beginStep base o).pc = s.pc := rfl
@[simp] theorem State.beginStep_pcStuck (s : State) (base : Nat) (o : Operand) : (s.beginStep base o).pcStuck = s.pcStuck := rfl
@[simp] theorem State.beginStep_mem (s : State) (base : Nat) (o : Operand) : (s.beginStep base o).mem = s.mem := rfl
@[simp] theorem State.beginStep_out (s : State) (base : Nat) (o : Operand) : (s.beginStep base o).out = { cycles := stepCycles base o s, warnings := [] } := rfl
@[simp] theorem State.beginStep_freeCount (s : State) (base : Nat) (o : Operand) : (s.beginStep base o).freeCount = s.freeCount := rfl

@[simp] theorem State.warnIf_a (s : State) (b : Bool) (w : StackWarning) : (s.warnIf b w).a = s.a := rfl
@[simp] theorem State.warnIf_x (s : State) (b : Bool) (w : StackWarning) : (s.warnIf b w).x = s.x := rfl
@[simp] theorem State.warnIf_y (s : State) (b : Bool) (w : StackWarning) : (s.warnIf b w).y = s.y := rfl
@[simp] theorem State.warnIf_sp (s : State) (b : Bool) (w : StackWarning) : (s.warnIf b w).sp = s.sp := rfl
@[simp] theorem State.warnIf_p (s : State) (b : Bool) (w : StackWarning) : (s.warnIf b w).p = s.p := rfl
@[simp] theorem State.warnIf_pc (s : State) (b : Bool) (w : StackWarning) : (s.warnIf b w).pc = s.pc := rfl
@[simp] theorem State.warnIf_pcStuck (s : State) (b : Bool) (w : StackWarning) : (s.warnIf b w).pcStuck = s.pcStuck := rfl
@[simp] theorem State.warnIf_mem (s : State) (b : Bool) (w : StackWarning) : (s.warnIf b w).mem = s.mem := rfl
@[simp] theorem State.warnIf_out (s : State) (b : Bool) (w : StackWarning) : (s.warnIf b w).out = { cycles := s.out.cycles, warnings := s.out.warnings ++ (if b then [w] else []) } := rfl
@[simp] theorem State.warnIf_freeCount (s : State) (b : Bool) (w : StackWarning) : (s.warnIf b w).freeCount = s.freeCount := rfl

@[simp] theorem State.memWrite_a (s : State) (addr : Nat) (v : Byte) : (s.memWrite addr v).a = s.a := rfl
@[simp] theorem State.memWrite_x (s : State) (addr : Nat) (v : Byte) : (s.memWrite addr v).x = s.x := rfl
@[simp] theorem State.memWrite_y (s : State) (addr : Nat) (v : Byte) : (s.memWrite addr v).y = s.y := rfl
@[simp] theorem State.memWrite_sp (s : State) (addr : Nat) (v : Byte) : (s.memWrite addr v).sp = s.sp := rfl
@[simp] theorem State.memWrite_p (s : State) (addr : Nat) (v : Byte) : (s.memWrite addr v).p = s.p := rfl
@[simp] theorem State.memWrite_pc (s : State) (addr : Nat) (v : Byte) : (s.memWrite addr v).pc = s.pc := rfl
@[simp] theorem State.memWrite_pcStuck (s : State) (addr : Nat) (v : Byte) : (s.memWrite addr v).pcStuck = s.pcStuck := rfl
@[simp] theorem State.memWrite_mem (s : State) (addr : Nat) (v : Byte) : (s.memWrite addr v).mem = Memory.writeCell s.mem (addr % Config.memSize) v := rfl
@[simp] theorem State.memWrite_out (s : State) (addr : Nat) (v : Byte) : (s.memWrite addr v).out = s.out := rfl
@[simp] theorem State.memWrite_freeCount (s : State) (addr : Nat) (v : Byte) : (s.memWrite addr v).freeCount = s.freeCount := rfl

@[simp] theorem State.writeByte_a (s : State) (addr : Word) (v : Byte) : (s.writeByte addr v).a = s.a := rfl
@[simp] theorem State.writeByte_x (s : State) (addr : Word) (v : Byte) : (s.writeByte addr v).x = s.x := rfl
@[simp] theorem State.writeByte_y (s : State) (addr : Word) (v : Byte) : (s.writeByte addr v).y = s.y := rfl
@[simp] theorem State.writeByte_sp (s : State) (addr : Word) (v : Byte) : (s.writeByte addr v).sp = s.sp := rfl
@[simp] theorem State.writeByte_p (s : State) (addr : Word) (v : Byte) : (s.writeByte addr v).p = s.p := rfl
@[simp] theorem State.writeByte_pc (s : State) (addr : Word) (v : Byte) : (s.writeByte addr v).pc = s.pc := rfl
@[simp] theorem State.writeByte_pcStuck (s : State) (addr : Word) (v : Byte) : (s.writeByte addr v).pcStuck = s.pcStuck := rfl
@[simp] theorem State.writeByte_mem (s : State) (addr : Word) (v : Byte) : (s.writeByte addr v).mem = Memory.writeCell s.mem (addr.toNat % Config.memSize) v := rfl
@[simp] theorem State.writeByte_out (s : State) (addr : Word) (v : Byte) : (s.writeByte addr v).out = s.out := rfl
@[simp] theorem State.writeByte_freeCount (s : State) (addr : Word) (v : Byte) : (s.writeByte addr v).freeCount = s.freeCount := rfl

@[simp] theorem State.advance_a (s : State) (len : Nat) : (s.advance len).a = s.a := rfl
@[simp] theorem State.advance_x (s : State) (len : Nat) : (s.advance len).x = s.x := rfl
@[simp] theorem State.advance_y (s : State) (len : Nat) : (s.advance len).y = s.y := rfl
@[simp] theorem State.advance_sp (s : State) (len : Nat) : (s.advance len).sp = s.sp := rfl
@[simp] theorem State.advance_p (s : State) (len : Nat) : (s.advance len).p = s.p := rfl
@[simp] theorem State.advance_pc (s : State) (len : Nat) : (s.advance len).pc = s.pc + BitVec.ofNat 16 len := rfl
@[simp] theorem State.advance_pcStuck (s : State) (len : Nat) : (s.advance len).pcStuck = s.pcStuck := rfl
@[simp] theorem State.advance_mem (s : State) (len : Nat) : (s.advance len).mem = s.mem := rfl
@[simp] theorem State.advance_out (s : State) (len : Nat) : (s.advance len).out = s.out := rfl
@[simp] theorem State.advance_freeCount (s : State) (len : Nat) : (s.advance len).freeCount = s.freeCount := rfl

@[simp] theorem State.advanceOver_a (s : State) (o : Operand) : (s.advanceOver o).a = s.a := rfl
@[simp] theorem State.advanceOver_x (s : State) (o : Operand) : (s.advanceOver o).x = s.x := rfl
@[simp] theorem State.advanceOver_y (s : State) (o : Operand) : (s.advanceOver o).y = s.y := rfl
@[simp] theorem State.advanceOver_sp (s : State) (o : Operand) : (s.advanceOver o).sp = s.sp := rfl
@[simp] theorem State.advanceOver_p (s : State) (o : Operand) : (s.advanceOver o).p = s.p := rfl
@[simp] theorem State.advanceOver_pc (s : State) (o : Operand) : (s.advanceOver o).pc = s.pc + BitVec.ofNat 16 o.mode.length := rfl
@[simp] theorem State.advanceOver_pcStuck (s : State) (o : Operand) : (s.advanceOver o).pcStuck = s.pcStuck := rfl
@[simp] theorem State.advanceOver_mem (s : State) (o : Operand) : (s.advanceOver o).mem = s.mem := rfl
@[simp] theorem State.advanceOver_out (s : State) (o : Operand) : (s.advanceOver o).out = s.out := rfl
@[simp] theorem State.advanceOver_freeCount (s : State) (o : Operand) : (s.advanceOver o).freeCount = s.freeCount := rfl

/-! Reads see memory alone. -/

@[simp] theorem State.setA_memRead (s : State) (v : Byte) (addr : Nat) :
    (s.setA v).memRead addr = s.memRead addr := rfl
@[simp] theorem State.setA_readByte (s : State) (v : Byte) (addr : Word) :
    (s.setA v).readByte addr = s.readByte addr := rfl
@[simp] theorem State.setX_memRead (s : State) (v : Byte) (addr : Nat) :
    (s.setX v).memRead addr = s.memRead addr := rfl
@[simp] theorem State.setX_readByte (s : State) (v : Byte) (addr : Word) :
    (s.setX v).readByte addr = s.readByte addr := rfl
@[simp] theorem State.setY_memRead (s : State) (v : Byte) (addr : Nat) :
    (s.setY v).memRead addr = s.memRead addr := rfl
@[simp] theorem State.setY_readByte (s : State) (v : Byte) (addr : Word) :
    (s.setY v).readByte addr = s.readByte addr := rfl
@[simp] theorem State.setSp_memRead (s : State) (v : Byte) (addr : Nat) :
    (s.setSp v).memRead addr = s.memRead addr := rfl
@[simp] theorem State.setSp_readByte (s : State) (v : Byte) (addr : Word) :
    (s.setSp v).readByte addr = s.readByte addr := rfl
@[simp] theorem State.setP_memRead (s : State) (v : Byte) (addr : Nat) :
    (s.setP v).memRead addr = s.memRead addr := rfl
@[simp] theorem State.setP_readByte (s : State) (v : Byte) (addr : Word) :
    (s.setP v).readByte addr = s.readByte addr := rfl
@[simp] theorem State.setPc_memRead (s : State) (v : Word) (addr : Nat) :
    (s.setPc v).memRead addr = s.memRead addr := rfl
@[simp] theorem State.setPc_readByte (s : State) (v : Word) (addr : Word) :
    (s.setPc v).readByte addr = s.readByte addr := rfl
@[simp] theorem State.setCycles_memRead (s : State) (c : Nat) (addr : Nat) :
    (s.setCycles c).memRead addr = s.memRead addr := rfl
@[simp] theorem State.setCycles_readByte (s : State) (c : Nat) (addr : Word) :
    (s.setCycles c).readByte addr = s.readByte addr := rfl
@[simp] theorem State.beginStep_memRead (s : State) (base : Nat) (o : Operand) (addr : Nat) :
    (s.beginStep base o).memRead addr = s.memRead addr := rfl
@[simp] theorem State.beginStep_readByte (s : State) (base : Nat) (o : Operand) (addr : Word) :
    (s.beginStep base o).readByte addr = s.readByte addr := rfl
@[simp] theorem State.warnIf_memRead (s : State) (b : Bool) (w : StackWarning) (addr : Nat) :
    (s.warnIf b w).memRead addr = s.memRead addr := rfl
@[simp] theorem State.warnIf_readByte (s : State) (b : Bool) (w : StackWarning) (addr : Word) :
    (s.warnIf b w).readByte addr = s.readByte addr := rfl
@[simp] theorem State.advance_memRead (s : State) (len : Nat) (addr : Nat) :
    (s.advance len).memRead addr = s.memRead addr := rfl
@[simp] theorem State.advance_readByte (s : State) (len : Nat) (addr : Word) :
    (s.advance len).readByte addr = s.readByte addr := rfl
@[simp] theorem State.advanceOver_memRead (s : State) (o : Operand) (addr : Nat) :
    (s.advanceOver o).memRead addr = s.memRead addr := rfl
@[simp] theorem State.advanceOver_readByte (s : State) (o : Operand) (addr : Word) :
    (s.advanceOver o).readByte addr = s.readByte addr := rfl

end Sys2Proof.Machine
end

