-- ==== Sys2Proof/Laws/Memory.lean ====
section
/-! SUPPORT. The laws of memory: what a read after a write gives, that every memory operation keeps the
canonical form, and that memories in that form that read alike are equal. -/

namespace Sys2Proof.Machine

theorem Memory.wfFrom_cons (lo k : Nat) (b : Byte) (m : Memory) :
    Memory.wfFrom lo ((k, b) :: m) = true ↔
      lo ≤ k ∧ k < Config.memSize ∧ b ≠ Config.unlistedByte ∧ Memory.wfFrom (k + 1) m = true := by
  simp [Memory.wfFrom, and_assoc]

theorem Memory.wfFrom_mono {lo lo' : Nat} (h : lo' ≤ lo) {m : Memory} (hm : Memory.wfFrom lo m = true) :
    Memory.wfFrom lo' m = true := by
  cases m with
  | nil => rfl
  | cons e m =>
    obtain ⟨k, b⟩ := e
    rw [Memory.wfFrom_cons] at hm ⊢
    exact ⟨h.trans hm.1, hm.2⟩

/-- Below its first address a canonical memory reads as unlisted. -/
theorem Memory.readCell_below {lo a : Nat} {m : Memory} (hm : Memory.wfFrom lo m = true) (h : a < lo) :
    Memory.readCell m a = Config.unlistedByte := by
  cases m with
  | nil => rfl
  | cons e m =>
    obtain ⟨k, b⟩ := e
    rw [Memory.wfFrom_cons] at hm
    simp [Memory.readCell, lt_of_lt_of_le h hm.1]

/-- A write keeps the canonical form. -/
theorem Memory.wfFrom_writeCell {a : Nat} (ha : a < Config.memSize) (b : Byte) :
    ∀ {lo : Nat} {m : Memory}, lo ≤ a → Memory.wfFrom lo m = true →
      Memory.wfFrom lo (Memory.writeCell m a b) = true := by
  intro lo m
  induction m generalizing lo with
  | nil =>
    intro hlo _
    by_cases hb : b = Config.unlistedByte <;>
      simp [Memory.writeCell, hb, Memory.wfFrom, hlo, ha]
  | cons e m ih =>
    obtain ⟨k, c⟩ := e
    intro hlo hm
    rw [Memory.wfFrom_cons] at hm
    obtain ⟨h1, h2, h3, h4⟩ := hm
    have hkc : ∀ l, l ≤ k → Memory.wfFrom l ((k, c) :: m) = true := fun l hl =>
      (Memory.wfFrom_cons l k c m).2 ⟨hl, h2, h3, h4⟩
    simp only [Memory.writeCell]
    split_ifs with hak hb hak' hb
    · exact hkc lo h1
    · exact (Memory.wfFrom_cons lo a b _).2 ⟨hlo, ha, hb, hkc _ hak⟩
    · exact Memory.wfFrom_mono (by omega) h4
    · subst hak'
      exact (Memory.wfFrom_cons lo a b m).2 ⟨hlo, ha, hb, h4⟩
    · exact (Memory.wfFrom_cons lo k c _).2 ⟨h1, h2, h3, ih (by omega) h4⟩

/-- A read after a write: the written byte at its address, every other cell as before. -/
theorem Memory.readCell_writeCell (a : Nat) (b : Byte) (a' : Nat) :
    ∀ {lo : Nat} {m : Memory}, Memory.wfFrom lo m = true →
      Memory.readCell (Memory.writeCell m a b) a' = if a' = a then b else Memory.readCell m a' := by
  intro lo m
  induction m generalizing lo with
  | nil =>
    intro _
    rcases lt_trichotomy a' a with h | rfl | h <;> by_cases hb : b = Config.unlistedByte
    · simp [Memory.writeCell, Memory.readCell, hb]
    · simp [Memory.writeCell, Memory.readCell, hb, h, h.ne]
    · simp [Memory.writeCell, Memory.readCell, hb]
    · simp [Memory.writeCell, Memory.readCell, hb]
    · simp [Memory.writeCell, Memory.readCell, hb]
    · simp [Memory.writeCell, Memory.readCell, hb, h.ne']
  | cons e m ih =>
    obtain ⟨k, c⟩ := e
    intro hm
    obtain ⟨_, _, _, h4⟩ := (Memory.wfFrom_cons lo k c m).1 hm
    rcases lt_trichotomy a k with hlt | rfl | hgt
    · have hwrite : Memory.writeCell ((k, c) :: m) a b =
          if b = Config.unlistedByte then (k, c) :: m else (a, b) :: (k, c) :: m := by
        simp [Memory.writeCell, hlt]
      rw [hwrite]
      rcases lt_trichotomy a' a with h | rfl | h <;> by_cases hb : b = Config.unlistedByte
      · simp [hb, h.ne]
      · simp [hb, h.ne, Memory.readCell, h, h.trans hlt]
      · simp [hb, Memory.readCell, hlt]
      · simp [hb, Memory.readCell]
      · simp [hb, h.ne']
      · simp [hb, h.ne', Memory.readCell, h.not_gt]
    · have hwrite : Memory.writeCell ((a, c) :: m) a b =
          if b = Config.unlistedByte then m else (a, b) :: m := by
        simp [Memory.writeCell]
      rw [hwrite]
      rcases lt_trichotomy a' a with h | rfl | h <;> by_cases hb : b = Config.unlistedByte
      · simp [hb, h.ne, Memory.readCell, h, Memory.readCell_below h4 (show a' < a + 1 by omega)]
      · simp [hb, h.ne, Memory.readCell, h]
      · simp [hb, Memory.readCell_below h4]
      · simp [hb, Memory.readCell]
      · simp [hb, h.ne', Memory.readCell, h.not_gt]
      · simp [hb, h.ne', Memory.readCell, h.not_gt]
    · have hwrite : Memory.writeCell ((k, c) :: m) a b = (k, c) :: Memory.writeCell m a b := by
        simp [Memory.writeCell, hgt.not_gt, hgt.ne']
      rw [hwrite, Memory.readCell, Memory.readCell, ih h4]
      by_cases h : a' = a
      · subst h; simp [hgt.not_gt, hgt.ne']
      · simp [h]

/-- Canonical memories that read alike are equal data. -/
theorem Memory.ext_readCell {lo lo' : Nat} {m m' : Memory} (hm : Memory.wfFrom lo m = true)
    (hm' : Memory.wfFrom lo' m' = true) (h : ∀ a, Memory.readCell m a = Memory.readCell m' a) : m = m' := by
  induction m generalizing lo lo' m' with
  | nil =>
    cases m' with
    | nil => rfl
    | cons e m' =>
      obtain ⟨k, b⟩ := e
      have := h k
      simp [Memory.readCell] at this
      exact absurd this.symm ((Memory.wfFrom_cons _ _ _ _).1 hm').2.2.1
  | cons e m ih =>
    obtain ⟨k, b⟩ := e
    obtain ⟨_, _, h3, h4⟩ := (Memory.wfFrom_cons _ _ _ _).1 hm
    cases m' with
    | nil =>
      have := h k
      simp [Memory.readCell] at this
      exact absurd this h3
    | cons e' m' =>
      obtain ⟨k', b'⟩ := e'
      obtain ⟨_, _, h3', h4'⟩ := (Memory.wfFrom_cons _ _ _ _).1 hm'
      have hk : k = k' := by
        rcases lt_trichotomy k k' with hlt | heq | hgt
        · have := h k
          simp [Memory.readCell, hlt] at this
          exact absurd this h3
        · exact heq
        · have := h k'
          simp [Memory.readCell, hgt] at this
          exact absurd this.symm h3'
      subst hk
      have hb : b = b' := by simpa [Memory.readCell] using h k
      subst hb
      rw [ih h4 h4' fun a => ?_]
      by_cases ha : a < k + 1
      · rw [Memory.readCell_below h4 ha, Memory.readCell_below h4' ha]
      · have := h a
        rw [Memory.readCell, Memory.readCell, if_neg (by omega), if_neg (by omega), if_neg (by omega),
          if_neg (by omega)] at this
        exact this

theorem State.memRead_memWrite {s : State} (h : s.mem.wf = true) (a : Nat) (v : Byte) (a' : Nat) :
    (s.memWrite a v).memRead a' = if a' % Config.memSize = a % Config.memSize then v else s.memRead a' :=
  Memory.readCell_writeCell _ _ _ h

theorem State.readByte_writeByte {s : State} (h : s.mem.wf = true) (a : Word) (v : Byte) (a' : Word) :
    (s.writeByte a v).readByte a' = if a' = a then v else s.readByte a' := by
  have hlt : ∀ w : Word, w.toNat % Config.memSize = w.toNat := fun w => Nat.mod_eq_of_lt w.isLt
  simp only [State.writeByte, State.readByte, State.memRead_memWrite h, hlt, BitVec.toNat_inj]

/-- A write at a reduced address keeps the canonical form. -/
@[simp] theorem Memory.wf_writeCell {m : Memory} (h : m.wf = true) (a : Nat) (v : Byte) :
    (Memory.writeCell m (a % Config.memSize) v).wf = true :=
  Memory.wfFrom_writeCell (Nat.mod_lt _ (by decide)) v (Nat.zero_le _) h

theorem State.wf_memWrite {s : State} (h : s.mem.wf = true) (a : Nat) (v : Byte) :
    (s.memWrite a v).mem.wf = true := Memory.wf_writeCell h a v

theorem State.wf_writeByte {s : State} (h : s.mem.wf = true) (a : Word) (v : Byte) :
    (s.writeByte a v).mem.wf = true := State.wf_memWrite h _ v

theorem State.wf_loadMemoryImage (image : List Host.Cell) :
    ∀ {s : State}, s.mem.wf = true → (s.loadMemoryImage image).mem.wf = true := by
  induction image with
  | nil => exact fun h => h
  | cons e image ih => exact fun h => ih (State.wf_memWrite h e.1 e.2)

/-- Reads depend on memory alone. -/
theorem State.memRead_congr {s t : State} (h : s.mem = t.mem) (a : Nat) : s.memRead a = t.memRead a := by
  simp [State.memRead, h]

theorem State.readByte_congr {s t : State} (h : s.mem = t.mem) (a : Word) : s.readByte a = t.readByte a :=
  State.memRead_congr h _

end Sys2Proof.Machine
end

