-- ==== Sys2Proof/Laws/Ops.lean ====
section
/-! SUPPORT. One lemma per shared operation that says everything it can do: the stack unit, trap entry and
return, and the shape every meaning has. -/

namespace Sys2Proof.Machine

theorem stackSlot_lt (sp : Byte) : stackSlot sp < Config.memSize := by
  have := sp.isLt
  simp only [stackSlot, Config.stackBase, Config.memSize]
  omega

/-- Everything a push does. -/
theorem State.push_eq (s : State) (v : Byte) :
    s.push v =
      { s with
        mem := Memory.writeCell s.mem (stackSlot s.sp) v
        sp := s.sp - 1
        out := { cycles := s.out.cycles
                 warnings := s.out.warnings ++ (if s.sp == 0x00 then [.stackOverflow] else []) } } := by
  simp [State.push, State.memWrite, State.setSp, State.warnIf, Nat.mod_eq_of_lt (stackSlot_lt s.sp)]

/-- Everything a pop does. -/
theorem State.pop_eq (s : State) :
    s.pop =
      (s.memRead (stackSlot (s.sp + 1)),
        { s with
          sp := s.sp + 1
          out := { cycles := s.out.cycles
                   warnings := s.out.warnings ++ (if s.sp == 0xFF then [.stackUnderflow] else []) } }) := rfl

@[simp] theorem State.wf_push {s : State} (h : s.mem.wf = true) (v : Byte) : (s.push v).mem.wf = true :=
  State.wf_memWrite h _ v

@[simp] theorem State.push_sp (s : State) (v : Byte) : (s.push v).sp = s.sp - 1 := rfl
@[simp] theorem State.push_a (s : State) (v : Byte) : (s.push v).a = s.a := rfl
@[simp] theorem State.push_x (s : State) (v : Byte) : (s.push v).x = s.x := rfl
@[simp] theorem State.push_y (s : State) (v : Byte) : (s.push v).y = s.y := rfl
@[simp] theorem State.push_p (s : State) (v : Byte) : (s.push v).p = s.p := rfl
@[simp] theorem State.push_pc (s : State) (v : Byte) : (s.push v).pc = s.pc := rfl
@[simp] theorem State.push_pcStuck (s : State) (v : Byte) : (s.push v).pcStuck = s.pcStuck := rfl
@[simp] theorem State.push_freeCount (s : State) (v : Byte) : (s.push v).freeCount = s.freeCount := rfl

/-- A push writes the slot S names and no other cell. -/
theorem State.memRead_push {s : State} (h : s.mem.wf = true) (v : Byte) (a : Nat) :
    (s.push v).memRead a = if a % Config.memSize = stackSlot s.sp then v else s.memRead a := by
  have := State.memRead_memWrite h (stackSlot s.sp) v a
  rwa [Nat.mod_eq_of_lt (stackSlot_lt s.sp)] at this

@[simp] theorem State.pop_snd_mem (s : State) : s.pop.2.mem = s.mem := rfl
@[simp] theorem State.pop_snd_sp (s : State) : s.pop.2.sp = s.sp + 1 := rfl
@[simp] theorem State.pop_snd_a (s : State) : s.pop.2.a = s.a := rfl
@[simp] theorem State.pop_snd_x (s : State) : s.pop.2.x = s.x := rfl
@[simp] theorem State.pop_snd_y (s : State) : s.pop.2.y = s.y := rfl
@[simp] theorem State.pop_snd_p (s : State) : s.pop.2.p = s.p := rfl
@[simp] theorem State.pop_snd_pc (s : State) : s.pop.2.pc = s.pc := rfl
@[simp] theorem State.pop_snd_pcStuck (s : State) : s.pop.2.pcStuck = s.pcStuck := rfl
@[simp] theorem State.pop_snd_freeCount (s : State) : s.pop.2.freeCount = s.freeCount := rfl

@[simp] theorem State.pop_snd_memRead (s : State) (a : Nat) : s.pop.2.memRead a = s.memRead a :=
  State.memRead_congr rfl a

@[simp] theorem State.popWord_snd_memRead (s : State) (a : Nat) :
    s.popWord.2.memRead a = s.memRead a := State.memRead_congr rfl a

/-- Everything two pops do to the registers. -/
theorem State.popWord_fst (s : State) :
    s.popWord.1 =
      joinBytes (s.memRead (stackSlot (s.sp + 1 + 1))) (s.memRead (stackSlot (s.sp + 1))) := by
  simp [State.popWord, State.pop]

@[simp] theorem State.popWord_snd_sp (s : State) : s.popWord.2.sp = s.sp + 1 + 1 := rfl
@[simp] theorem State.popWord_snd_a (s : State) : s.popWord.2.a = s.a := rfl
@[simp] theorem State.popWord_snd_x (s : State) : s.popWord.2.x = s.x := rfl
@[simp] theorem State.popWord_snd_y (s : State) : s.popWord.2.y = s.y := rfl
@[simp] theorem State.popWord_snd_p (s : State) : s.popWord.2.p = s.p := rfl
@[simp] theorem State.popWord_snd_pc (s : State) : s.popWord.2.pc = s.pc := rfl
@[simp] theorem State.popWord_snd_mem (s : State) : s.popWord.2.mem = s.mem := rfl
@[simp] theorem State.popWord_snd_pcStuck (s : State) : s.popWord.2.pcStuck = s.pcStuck := rfl
@[simp] theorem State.popWord_snd_freeCount (s : State) : s.popWord.2.freeCount = s.freeCount := rfl

/-- What trap entry leaves in each field: three pushes, I set, PC by the policy. -/
theorem State.takeBreak_fields (s : State) (policy : BrkPcPolicy) :
    (s.takeBreak policy).a = s.a ∧ (s.takeBreak policy).x = s.x ∧ (s.takeBreak policy).y = s.y ∧
      (s.takeBreak policy).sp = s.sp - 1 - 1 - 1 ∧ (s.takeBreak policy).p = setFlag s.p .i true ∧
      (s.takeBreak policy).mem =
        (((s.push (hiByte (s.pc + 2))).push (loByte (s.pc + 2))).push (statusForPush s.p)).mem := by
  simp [State.takeBreak, State.leavePcAfterBreak, State.pushWord]

/-- What trap return leaves in each register: three pops. -/
theorem State.returnFromInterrupt_fields (s : State) :
    s.returnFromInterrupt.a = s.a ∧ s.returnFromInterrupt.x = s.x ∧ s.returnFromInterrupt.y = s.y ∧
      s.returnFromInterrupt.sp = s.sp + 1 + 1 + 1 ∧
      s.returnFromInterrupt.p = restoreFromPull (s.memRead (stackSlot (s.sp + 1))) ∧
      s.returnFromInterrupt.pc =
        joinBytes (s.memRead (stackSlot (s.sp + 1 + 1 + 1))) (s.memRead (stackSlot (s.sp + 1 + 1))) ∧
      s.returnFromInterrupt.mem = s.mem := by
  simp [State.returnFromInterrupt, State.popWord_fst]
  rfl

@[simp] theorem State.wf_takeBreak {s : State} (h : s.mem.wf = true) (policy : BrkPcPolicy) :
    (s.takeBreak policy).mem.wf = true := by
  rw [(State.takeBreak_fields s policy).2.2.2.2.2]
  exact State.wf_push (State.wf_push (State.wf_push h _) _) _

theorem joinBytes_toNat (hi lo : Byte) : (joinBytes hi lo).toNat = hi.toNat * 256 + lo.toNat := by
  have := lo.isLt
  simp only [joinBytes, BitVec.toNat_append]
  rw [← Nat.shiftLeft_add_eq_or_of_lt this, Nat.shiftLeft_eq]

theorem loByte_toNat (w : Word) : (loByte w).toNat = w.toNat % 256 := by
  simp [loByte, BitVec.extractLsb'_toNat]

theorem hiByte_toNat (w : Word) : (hiByte w).toNat = w.toNat / 256 := by
  have := w.isLt
  simp [hiByte, BitVec.extractLsb'_toNat, Nat.shiftRight_eq_div_pow]
  omega

/-- The two halves of a word join to it. -/
@[simp] theorem joinBytes_hiByte_loByte (w : Word) : joinBytes (hiByte w) (loByte w) = w := by
  apply BitVec.eq_of_toNat_eq
  rw [joinBytes_toNat, loByte_toNat, hiByte_toNat]
  omega

@[simp] theorem loByte_joinBytes (hi lo : Byte) : loByte (joinBytes hi lo) = lo := by
  have := lo.isLt
  apply BitVec.eq_of_toNat_eq
  rw [loByte_toNat, joinBytes_toNat]
  omega

@[simp] theorem hiByte_joinBytes (hi lo : Byte) : hiByte (joinBytes hi lo) = hi := by
  have := lo.isLt
  apply BitVec.eq_of_toNat_eq
  rw [hiByte_toNat, joinBytes_toNat]
  omega

end Sys2Proof.Machine
end

