-- ==== Sys2Proof/Laws/Exec.lean ====
section
/-! SUPPORT. Each mnemonic's meaning over all of its modes, so that no later proof splits over the 151
constructors to reach it; and what a step that gives a next state has done. -/

namespace Sys2Proof.Machine

/-- A step that gives a next state ran the instruction at a PC that was not stuck. -/
theorem step_next {s t : State} (h : step s = .next t) :
    s.pcStuck = false ∧ ∃ i, s.fetchInstr = some i ∧ exec i s = .next t := by
  unfold step at h
  split at h
  · cases h
  · split at h
    · exact ⟨by simp_all, _, by assumption, h⟩
    · cases h

theorem exec_adc {i : Instr} {d : DataOperand} (hm : i.mnemonic = .adc) (ho : i.operand = .data d)
    (s : State) : ∃ base, exec i s = runAdc d base s := by
  cases i <;> cases hm <;> cases ho <;> exact ⟨_, rfl⟩

theorem exec_sbc {i : Instr} {d : DataOperand} (hm : i.mnemonic = .sbc) (ho : i.operand = .data d)
    (s : State) : ∃ base, exec i s = runSbc d base s := by
  cases i <;> cases hm <;> cases ho <;> exact ⟨_, rfl⟩

theorem exec_lda {i : Instr} {d : DataOperand} (hm : i.mnemonic = .lda) (ho : i.operand = .data d)
    (s : State) : ∃ base, exec i s = runLda d base s := by
  cases i <;> cases hm <;> cases ho <;> exact ⟨_, rfl⟩

theorem exec_ldx {i : Instr} {d : DataOperand} (hm : i.mnemonic = .ldx) (ho : i.operand = .data d)
    (s : State) : ∃ base, exec i s = runLdx d base s := by
  cases i <;> cases hm <;> cases ho <;> exact ⟨_, rfl⟩

theorem exec_ldy {i : Instr} {d : DataOperand} (hm : i.mnemonic = .ldy) (ho : i.operand = .data d)
    (s : State) : ∃ base, exec i s = runLdy d base s := by
  cases i <;> cases hm <;> cases ho <;> exact ⟨_, rfl⟩

theorem exec_sta {i : Instr} {d : DataOperand} (hm : i.mnemonic = .sta) (ho : i.operand = .data d)
    (s : State) : ∃ base, exec i s = runStore s.a d base s := by
  cases i <;> cases hm <;> cases ho <;> exact ⟨_, rfl⟩

theorem exec_stx {i : Instr} {d : DataOperand} (hm : i.mnemonic = .stx) (ho : i.operand = .data d)
    (s : State) : ∃ base, exec i s = runStore s.x d base s := by
  cases i <;> cases hm <;> cases ho <;> exact ⟨_, rfl⟩

theorem exec_sty {i : Instr} {d : DataOperand} (hm : i.mnemonic = .sty) (ho : i.operand = .data d)
    (s : State) : ∃ base, exec i s = runStore s.y d base s := by
  cases i <;> cases hm <;> cases ho <;> exact ⟨_, rfl⟩

theorem exec_and {i : Instr} {d : DataOperand} (hm : i.mnemonic = .and) (ho : i.operand = .data d)
    (s : State) : ∃ base, exec i s = runLogic (· &&& ·) d base s := by
  cases i <;> cases hm <;> cases ho <;> exact ⟨_, rfl⟩

theorem exec_ora {i : Instr} {d : DataOperand} (hm : i.mnemonic = .ora) (ho : i.operand = .data d)
    (s : State) : ∃ base, exec i s = runLogic (· ||| ·) d base s := by
  cases i <;> cases hm <;> cases ho <;> exact ⟨_, rfl⟩

theorem exec_eor {i : Instr} {d : DataOperand} (hm : i.mnemonic = .eor) (ho : i.operand = .data d)
    (s : State) : ∃ base, exec i s = runLogic (· ^^^ ·) d base s := by
  cases i <;> cases hm <;> cases ho <;> exact ⟨_, rfl⟩

theorem exec_bit {i : Instr} {d : DataOperand} (hm : i.mnemonic = .bit) (ho : i.operand = .data d)
    (s : State) : ∃ base, exec i s = runBit d base s := by
  cases i <;> cases hm <;> cases ho <;> exact ⟨_, rfl⟩

theorem exec_inc {i : Instr} {d : DataOperand} (hm : i.mnemonic = .inc) (ho : i.operand = .data d)
    (s : State) : ∃ base, exec i s = runAddToMemory 1 d base s := by
  cases i <;> cases hm <;> cases ho <;> exact ⟨_, rfl⟩

theorem exec_dec {i : Instr} {d : DataOperand} (hm : i.mnemonic = .dec) (ho : i.operand = .data d)
    (s : State) : ∃ base, exec i s = runAddToMemory (-1) d base s := by
  cases i <;> cases hm <;> cases ho <;> exact ⟨_, rfl⟩

theorem exec_cmp {i : Instr} {d : DataOperand} (hm : i.mnemonic = .cmp) (ho : i.operand = .data d)
    (s : State) : ∃ base, exec i s = runCompare s.a d base s := by
  cases i <;> cases hm <;> cases ho <;> exact ⟨_, rfl⟩

theorem exec_cpx {i : Instr} {d : DataOperand} (hm : i.mnemonic = .cpx) (ho : i.operand = .data d)
    (s : State) : ∃ base, exec i s = runCompare s.x d base s := by
  cases i <;> cases hm <;> cases ho <;> exact ⟨_, rfl⟩

theorem exec_cpy {i : Instr} {d : DataOperand} (hm : i.mnemonic = .cpy) (ho : i.operand = .data d)
    (s : State) : ∃ base, exec i s = runCompare s.y d base s := by
  cases i <;> cases hm <;> cases ho <;> exact ⟨_, rfl⟩

theorem exec_asl_memory {i : Instr} {d : DataOperand} (hm : i.mnemonic = .asl) (ho : i.operand = .data d)
    (s : State) : ∃ base, exec i s = runShiftMemory shiftAsl d base s := by
  cases i <;> cases hm <;> cases ho <;> exact ⟨_, rfl⟩

theorem exec_lsr_memory {i : Instr} {d : DataOperand} (hm : i.mnemonic = .lsr) (ho : i.operand = .data d)
    (s : State) : ∃ base, exec i s = runShiftMemory shiftLsr d base s := by
  cases i <;> cases hm <;> cases ho <;> exact ⟨_, rfl⟩

theorem exec_rol_memory {i : Instr} {d : DataOperand} (hm : i.mnemonic = .rol) (ho : i.operand = .data d)
    (s : State) : ∃ base, exec i s = runShiftMemory shiftRol d base s := by
  cases i <;> cases hm <;> cases ho <;> exact ⟨_, rfl⟩

theorem exec_ror_memory {i : Instr} {d : DataOperand} (hm : i.mnemonic = .ror) (ho : i.operand = .data d)
    (s : State) : ∃ base, exec i s = runShiftMemory shiftRor d base s := by
  cases i <;> cases hm <;> cases ho <;> exact ⟨_, rfl⟩

/-- The eight branches are the instructions with a relative operand. -/
theorem exec_branch {i : Instr} {d : Byte} (ho : i.operand = .relative d) (s : State) :
    ∃ cond, exec i s = runBranch cond d 2 s := by
  cases i <;> cases ho <;> exact ⟨_, rfl⟩

/-- The shapes a meaning has: for each, the mnemonics and the operand it is the meaning of. -/
inductive Meaning (i : Instr) (s : State) : Host.Outcome State Fault Refusal → Prop where
  | adc {d : DataOperand} {base : Nat} : i.mnemonic = .adc → i.operand = .data d → Meaning i s (runAdc d base s)
  | sbc {d : DataOperand} {base : Nat} : i.mnemonic = .sbc → i.operand = .data d → Meaning i s (runSbc d base s)
  | lda {d : DataOperand} {base : Nat} : i.mnemonic = .lda → i.operand = .data d → Meaning i s (runLda d base s)
  | ldx {d : DataOperand} {base : Nat} : i.mnemonic = .ldx → i.operand = .data d → Meaning i s (runLdx d base s)
  | ldy {d : DataOperand} {base : Nat} : i.mnemonic = .ldy → i.operand = .data d → Meaning i s (runLdy d base s)
  | bit {d : DataOperand} {base : Nat} : i.mnemonic = .bit → i.operand = .data d → Meaning i s (runBit d base s)
  | store {d : DataOperand} {base : Nat} {v : Byte} :
      (i.mnemonic, v) ∈ [(Mnemonic.sta, s.a), (.stx, s.x), (.sty, s.y)] → i.operand = .data d →
      Meaning i s (runStore v d base s)
  | logic {d : DataOperand} {base : Nat} {f : Byte → Byte → Byte} :
      (i.mnemonic, f) ∈ [(Mnemonic.and, (· &&& ·)), (.ora, (· ||| ·)), (.eor, (· ^^^ ·))] →
      i.operand = .data d → Meaning i s (runLogic f d base s)
  | addToMemory {d : DataOperand} {base : Nat} {v : Byte} :
      (i.mnemonic, v) ∈ [(Mnemonic.inc, 1), (.dec, -1)] → i.operand = .data d →
      Meaning i s (runAddToMemory v d base s)
  | shiftA {base : Nat} {f : Byte → Bool → ShiftResult} :
      (i.mnemonic, f) ∈ [(Mnemonic.asl, shiftAsl), (.lsr, shiftLsr), (.rol, shiftRol), (.ror, shiftRor)] →
      i.operand = .accumulator → Meaning i s (runShiftA f base s)
  | shiftMemory {d : DataOperand} {base : Nat} {f : Byte → Bool → ShiftResult} :
      (i.mnemonic, f) ∈ [(Mnemonic.asl, shiftAsl), (.lsr, shiftLsr), (.rol, shiftRol), (.ror, shiftRor)] →
      i.operand = .data d → Meaning i s (runShiftMemory f d base s)
  | compare {d : DataOperand} {base : Nat} {reg : Byte} :
      (i.mnemonic, reg) ∈ [(Mnemonic.cmp, s.a), (.cpx, s.x), (.cpy, s.y)] → i.operand = .data d →
      Meaning i s (runCompare reg d base s)
  | branch {d : Byte} {cond : Bool} :
      (i.mnemonic, cond) ∈ [(Mnemonic.bcc, !getFlag s.p .c), (.bcs, getFlag s.p .c), (.beq, getFlag s.p .z),
        (.bne, !getFlag s.p .z), (.bmi, getFlag s.p .n), (.bpl, !getFlag s.p .n), (.bvc, !getFlag s.p .v),
        (.bvs, getFlag s.p .v)] →
      i.operand = .relative d → Meaning i s (runBranch cond d 2 s)
  | setFlag {f : Flag} {bit : Bool} :
      (i.mnemonic, f, bit) ∈ [(Mnemonic.clc, Flag.c, false), (.sec, .c, true), (.cli, .i, false),
        (.sei, .i, true), (.cld, .d, false), (.sed, .d, true), (.clv, .v, false)] →
      i.operand = .implied → Meaning i s (runSetFlag f bit 2 s)
  | tax : i = .tax → Meaning i s (execTax s)
  | tay : i = .tay → Meaning i s (execTay s)
  | txa : i = .txa → Meaning i s (execTxa s)
  | tya : i = .tya → Meaning i s (execTya s)
  | tsx : i = .tsx → Meaning i s (execTsx s)
  | txs : i = .txs → Meaning i s (execTxs s)
  | inx : i = .inx → Meaning i s (execInx s)
  | iny : i = .iny → Meaning i s (execIny s)
  | dex : i = .dex → Meaning i s (execDex s)
  | dey : i = .dey → Meaning i s (execDey s)
  | jmpAbs (w : Word) : i = .jmpAbs w → Meaning i s (execJmpAbs w s)
  | jmpInd (w : Word) : i = .jmpInd w → Meaning i s (execJmpInd w s)
  | pha : i = .pha → Meaning i s (execPha s)
  | php : i = .php → Meaning i s (execPhp s)
  | pla : i = .pla → Meaning i s (execPla s)
  | plp : i = .plp → Meaning i s (execPlp s)
  | jsr (w : Word) : i = .jsr w → Meaning i s (execJsr w s)
  | rts : i = .rts → Meaning i s (execRts s)
  | brk : i = .brk → Meaning i s (execBrk s)
  | rti : i = .rti → Meaning i s (execRti s)
  | nop : i = .nop → Meaning i s (execNop s)

/-- Every arm of `exec` is one of the shapes. A proof over all instructions splits over these, not over the 151
constructors. -/
theorem exec_meaning (i : Instr) (s : State) : Meaning i s (exec i s) := by
  cases i with
  | adcImm v => exact .adc rfl rfl
  | adcZp z => exact .adc rfl rfl
  | adcZpx z => exact .adc rfl rfl
  | adcAbs w => exact .adc rfl rfl
  | adcAbx w => exact .adc rfl rfl
  | adcAby w => exact .adc rfl rfl
  | adcIzx z => exact .adc rfl rfl
  | adcIzy z => exact .adc rfl rfl
  | sbcImm v => exact .sbc rfl rfl
  | sbcZp z => exact .sbc rfl rfl
  | sbcZpx z => exact .sbc rfl rfl
  | sbcAbs w => exact .sbc rfl rfl
  | sbcAbx w => exact .sbc rfl rfl
  | sbcAby w => exact .sbc rfl rfl
  | sbcIzx z => exact .sbc rfl rfl
  | sbcIzy z => exact .sbc rfl rfl
  | ldaImm v => exact .lda rfl rfl
  | ldaZp z => exact .lda rfl rfl
  | ldaZpx z => exact .lda rfl rfl
  | ldaAbs w => exact .lda rfl rfl
  | ldaAbx w => exact .lda rfl rfl
  | ldaAby w => exact .lda rfl rfl
  | ldaIzx z => exact .lda rfl rfl
  | ldaIzy z => exact .lda rfl rfl
  | ldxImm v => exact .ldx rfl rfl
  | ldxZp z => exact .ldx rfl rfl
  | ldxZpy z => exact .ldx rfl rfl
  | ldxAbs w => exact .ldx rfl rfl
  | ldxAby w => exact .ldx rfl rfl
  | ldyImm v => exact .ldy rfl rfl
  | ldyZp z => exact .ldy rfl rfl
  | ldyZpx z => exact .ldy rfl rfl
  | ldyAbs w => exact .ldy rfl rfl
  | ldyAbx w => exact .ldy rfl rfl
  | staZp z => exact .store (by simp [Instr.mnemonic]) rfl
  | staZpx z => exact .store (by simp [Instr.mnemonic]) rfl
  | staAbs w => exact .store (by simp [Instr.mnemonic]) rfl
  | staAbx w => exact .store (by simp [Instr.mnemonic]) rfl
  | staAby w => exact .store (by simp [Instr.mnemonic]) rfl
  | staIzx z => exact .store (by simp [Instr.mnemonic]) rfl
  | staIzy z => exact .store (by simp [Instr.mnemonic]) rfl
  | stxZp z => exact .store (by simp [Instr.mnemonic]) rfl
  | stxZpy z => exact .store (by simp [Instr.mnemonic]) rfl
  | stxAbs w => exact .store (by simp [Instr.mnemonic]) rfl
  | styZp z => exact .store (by simp [Instr.mnemonic]) rfl
  | styZpx z => exact .store (by simp [Instr.mnemonic]) rfl
  | styAbs w => exact .store (by simp [Instr.mnemonic]) rfl
  | tax => exact .tax rfl
  | tay => exact .tay rfl
  | txa => exact .txa rfl
  | tya => exact .tya rfl
  | tsx => exact .tsx rfl
  | txs => exact .txs rfl
  | andImm v => exact .logic (by simp [Instr.mnemonic]) rfl
  | andZp z => exact .logic (by simp [Instr.mnemonic]) rfl
  | andZpx z => exact .logic (by simp [Instr.mnemonic]) rfl
  | andAbs w => exact .logic (by simp [Instr.mnemonic]) rfl
  | andAbx w => exact .logic (by simp [Instr.mnemonic]) rfl
  | andAby w => exact .logic (by simp [Instr.mnemonic]) rfl
  | andIzx z => exact .logic (by simp [Instr.mnemonic]) rfl
  | andIzy z => exact .logic (by simp [Instr.mnemonic]) rfl
  | oraImm v => exact .logic (by simp [Instr.mnemonic]) rfl
  | oraZp z => exact .logic (by simp [Instr.mnemonic]) rfl
  | oraZpx z => exact .logic (by simp [Instr.mnemonic]) rfl
  | oraAbs w => exact .logic (by simp [Instr.mnemonic]) rfl
  | oraAbx w => exact .logic (by simp [Instr.mnemonic]) rfl
  | oraAby w => exact .logic (by simp [Instr.mnemonic]) rfl
  | oraIzx z => exact .logic (by simp [Instr.mnemonic]) rfl
  | oraIzy z => exact .logic (by simp [Instr.mnemonic]) rfl
  | eorImm v => exact .logic (by simp [Instr.mnemonic]) rfl
  | eorZp z => exact .logic (by simp [Instr.mnemonic]) rfl
  | eorZpx z => exact .logic (by simp [Instr.mnemonic]) rfl
  | eorAbs w => exact .logic (by simp [Instr.mnemonic]) rfl
  | eorAbx w => exact .logic (by simp [Instr.mnemonic]) rfl
  | eorAby w => exact .logic (by simp [Instr.mnemonic]) rfl
  | eorIzx z => exact .logic (by simp [Instr.mnemonic]) rfl
  | eorIzy z => exact .logic (by simp [Instr.mnemonic]) rfl
  | bitZp z => exact .bit rfl rfl
  | bitAbs w => exact .bit rfl rfl
  | incZp z => exact .addToMemory (by simp [Instr.mnemonic]) rfl
  | incZpx z => exact .addToMemory (by simp [Instr.mnemonic]) rfl
  | incAbs w => exact .addToMemory (by simp [Instr.mnemonic]) rfl
  | incAbx w => exact .addToMemory (by simp [Instr.mnemonic]) rfl
  | decZp z => exact .addToMemory (by simp [Instr.mnemonic]) rfl
  | decZpx z => exact .addToMemory (by simp [Instr.mnemonic]) rfl
  | decAbs w => exact .addToMemory (by simp [Instr.mnemonic]) rfl
  | decAbx w => exact .addToMemory (by simp [Instr.mnemonic]) rfl
  | inx => exact .inx rfl
  | iny => exact .iny rfl
  | dex => exact .dex rfl
  | dey => exact .dey rfl
  | aslAcc => exact .shiftA (by simp [Instr.mnemonic]) rfl
  | aslZp z => exact .shiftMemory (by simp [Instr.mnemonic]) rfl
  | aslZpx z => exact .shiftMemory (by simp [Instr.mnemonic]) rfl
  | aslAbs w => exact .shiftMemory (by simp [Instr.mnemonic]) rfl
  | aslAbx w => exact .shiftMemory (by simp [Instr.mnemonic]) rfl
  | lsrAcc => exact .shiftA (by simp [Instr.mnemonic]) rfl
  | lsrZp z => exact .shiftMemory (by simp [Instr.mnemonic]) rfl
  | lsrZpx z => exact .shiftMemory (by simp [Instr.mnemonic]) rfl
  | lsrAbs w => exact .shiftMemory (by simp [Instr.mnemonic]) rfl
  | lsrAbx w => exact .shiftMemory (by simp [Instr.mnemonic]) rfl
  | rolAcc => exact .shiftA (by simp [Instr.mnemonic]) rfl
  | rolZp z => exact .shiftMemory (by simp [Instr.mnemonic]) rfl
  | rolZpx z => exact .shiftMemory (by simp [Instr.mnemonic]) rfl
  | rolAbs w => exact .shiftMemory (by simp [Instr.mnemonic]) rfl
  | rolAbx w => exact .shiftMemory (by simp [Instr.mnemonic]) rfl
  | rorAcc => exact .shiftA (by simp [Instr.mnemonic]) rfl
  | rorZp z => exact .shiftMemory (by simp [Instr.mnemonic]) rfl
  | rorZpx z => exact .shiftMemory (by simp [Instr.mnemonic]) rfl
  | rorAbs w => exact .shiftMemory (by simp [Instr.mnemonic]) rfl
  | rorAbx w => exact .shiftMemory (by simp [Instr.mnemonic]) rfl
  | bcc d => exact .branch (by simp [Instr.mnemonic]) rfl
  | bcs d => exact .branch (by simp [Instr.mnemonic]) rfl
  | beq d => exact .branch (by simp [Instr.mnemonic]) rfl
  | bne d => exact .branch (by simp [Instr.mnemonic]) rfl
  | bmi d => exact .branch (by simp [Instr.mnemonic]) rfl
  | bpl d => exact .branch (by simp [Instr.mnemonic]) rfl
  | bvc d => exact .branch (by simp [Instr.mnemonic]) rfl
  | bvs d => exact .branch (by simp [Instr.mnemonic]) rfl
  | jmpAbs w => exact .jmpAbs w rfl
  | jmpInd w => exact .jmpInd w rfl
  | pha => exact .pha rfl
  | php => exact .php rfl
  | pla => exact .pla rfl
  | plp => exact .plp rfl
  | jsr w => exact .jsr w rfl
  | rts => exact .rts rfl
  | brk => exact .brk rfl
  | rti => exact .rti rfl
  | cmpImm v => exact .compare (by simp [Instr.mnemonic]) rfl
  | cmpZp z => exact .compare (by simp [Instr.mnemonic]) rfl
  | cmpZpx z => exact .compare (by simp [Instr.mnemonic]) rfl
  | cmpAbs w => exact .compare (by simp [Instr.mnemonic]) rfl
  | cmpAbx w => exact .compare (by simp [Instr.mnemonic]) rfl
  | cmpAby w => exact .compare (by simp [Instr.mnemonic]) rfl
  | cmpIzx z => exact .compare (by simp [Instr.mnemonic]) rfl
  | cmpIzy z => exact .compare (by simp [Instr.mnemonic]) rfl
  | cpxImm v => exact .compare (by simp [Instr.mnemonic]) rfl
  | cpxZp z => exact .compare (by simp [Instr.mnemonic]) rfl
  | cpxAbs w => exact .compare (by simp [Instr.mnemonic]) rfl
  | cpyImm v => exact .compare (by simp [Instr.mnemonic]) rfl
  | cpyZp z => exact .compare (by simp [Instr.mnemonic]) rfl
  | cpyAbs w => exact .compare (by simp [Instr.mnemonic]) rfl
  | clc => exact .setFlag (by simp [Instr.mnemonic]) rfl
  | sec => exact .setFlag (by simp [Instr.mnemonic]) rfl
  | cli => exact .setFlag (by simp [Instr.mnemonic]) rfl
  | sei => exact .setFlag (by simp [Instr.mnemonic]) rfl
  | cld => exact .setFlag (by simp [Instr.mnemonic]) rfl
  | sed => exact .setFlag (by simp [Instr.mnemonic]) rfl
  | clv => exact .setFlag (by simp [Instr.mnemonic]) rfl
  | nop => exact .nop rfl

end Sys2Proof.Machine
end

