-- ==== Sys2Proof/Laws/PerInstr.lean ====
section
/-! SUPPORT. A statement about every instruction as syntax, made per constructor: the encoder writes exactly
as many bytes as the instruction's mode takes (30_encoding.md R90, R92). -/

namespace Sys2Proof.Laws.EncodedLength

/-- The encoding of `i` has the length of its addressing mode. -/
def Statement (i : Instr) : Prop := (encode i).length = i.length

theorem adcImm (v : Byte) : Statement (.adcImm v) := rfl
theorem adcZp (z : Byte) : Statement (.adcZp z) := rfl
theorem adcZpx (z : Byte) : Statement (.adcZpx z) := rfl
theorem adcAbs (w : Word) : Statement (.adcAbs w) := rfl
theorem adcAbx (w : Word) : Statement (.adcAbx w) := rfl
theorem adcAby (w : Word) : Statement (.adcAby w) := rfl
theorem adcIzx (z : Byte) : Statement (.adcIzx z) := rfl
theorem adcIzy (z : Byte) : Statement (.adcIzy z) := rfl
theorem sbcImm (v : Byte) : Statement (.sbcImm v) := rfl
theorem sbcZp (z : Byte) : Statement (.sbcZp z) := rfl
theorem sbcZpx (z : Byte) : Statement (.sbcZpx z) := rfl
theorem sbcAbs (w : Word) : Statement (.sbcAbs w) := rfl
theorem sbcAbx (w : Word) : Statement (.sbcAbx w) := rfl
theorem sbcAby (w : Word) : Statement (.sbcAby w) := rfl
theorem sbcIzx (z : Byte) : Statement (.sbcIzx z) := rfl
theorem sbcIzy (z : Byte) : Statement (.sbcIzy z) := rfl
theorem ldaImm (v : Byte) : Statement (.ldaImm v) := rfl
theorem ldaZp (z : Byte) : Statement (.ldaZp z) := rfl
theorem ldaZpx (z : Byte) : Statement (.ldaZpx z) := rfl
theorem ldaAbs (w : Word) : Statement (.ldaAbs w) := rfl
theorem ldaAbx (w : Word) : Statement (.ldaAbx w) := rfl
theorem ldaAby (w : Word) : Statement (.ldaAby w) := rfl
theorem ldaIzx (z : Byte) : Statement (.ldaIzx z) := rfl
theorem ldaIzy (z : Byte) : Statement (.ldaIzy z) := rfl
theorem ldxImm (v : Byte) : Statement (.ldxImm v) := rfl
theorem ldxZp (z : Byte) : Statement (.ldxZp z) := rfl
theorem ldxZpy (z : Byte) : Statement (.ldxZpy z) := rfl
theorem ldxAbs (w : Word) : Statement (.ldxAbs w) := rfl
theorem ldxAby (w : Word) : Statement (.ldxAby w) := rfl
theorem ldyImm (v : Byte) : Statement (.ldyImm v) := rfl
theorem ldyZp (z : Byte) : Statement (.ldyZp z) := rfl
theorem ldyZpx (z : Byte) : Statement (.ldyZpx z) := rfl
theorem ldyAbs (w : Word) : Statement (.ldyAbs w) := rfl
theorem ldyAbx (w : Word) : Statement (.ldyAbx w) := rfl
theorem staZp (z : Byte) : Statement (.staZp z) := rfl
theorem staZpx (z : Byte) : Statement (.staZpx z) := rfl
theorem staAbs (w : Word) : Statement (.staAbs w) := rfl
theorem staAbx (w : Word) : Statement (.staAbx w) := rfl
theorem staAby (w : Word) : Statement (.staAby w) := rfl
theorem staIzx (z : Byte) : Statement (.staIzx z) := rfl
theorem staIzy (z : Byte) : Statement (.staIzy z) := rfl
theorem stxZp (z : Byte) : Statement (.stxZp z) := rfl
theorem stxZpy (z : Byte) : Statement (.stxZpy z) := rfl
theorem stxAbs (w : Word) : Statement (.stxAbs w) := rfl
theorem styZp (z : Byte) : Statement (.styZp z) := rfl
theorem styZpx (z : Byte) : Statement (.styZpx z) := rfl
theorem styAbs (w : Word) : Statement (.styAbs w) := rfl
theorem tax : Statement .tax := rfl
theorem tay : Statement .tay := rfl
theorem txa : Statement .txa := rfl
theorem tya : Statement .tya := rfl
theorem tsx : Statement .tsx := rfl
theorem txs : Statement .txs := rfl
theorem andImm (v : Byte) : Statement (.andImm v) := rfl
theorem andZp (z : Byte) : Statement (.andZp z) := rfl
theorem andZpx (z : Byte) : Statement (.andZpx z) := rfl
theorem andAbs (w : Word) : Statement (.andAbs w) := rfl
theorem andAbx (w : Word) : Statement (.andAbx w) := rfl
theorem andAby (w : Word) : Statement (.andAby w) := rfl
theorem andIzx (z : Byte) : Statement (.andIzx z) := rfl
theorem andIzy (z : Byte) : Statement (.andIzy z) := rfl
theorem oraImm (v : Byte) : Statement (.oraImm v) := rfl
theorem oraZp (z : Byte) : Statement (.oraZp z) := rfl
theorem oraZpx (z : Byte) : Statement (.oraZpx z) := rfl
theorem oraAbs (w : Word) : Statement (.oraAbs w) := rfl
theorem oraAbx (w : Word) : Statement (.oraAbx w) := rfl
theorem oraAby (w : Word) : Statement (.oraAby w) := rfl
theorem oraIzx (z : Byte) : Statement (.oraIzx z) := rfl
theorem oraIzy (z : Byte) : Statement (.oraIzy z) := rfl
theorem eorImm (v : Byte) : Statement (.eorImm v) := rfl
theorem eorZp (z : Byte) : Statement (.eorZp z) := rfl
theorem eorZpx (z : Byte) : Statement (.eorZpx z) := rfl
theorem eorAbs (w : Word) : Statement (.eorAbs w) := rfl
theorem eorAbx (w : Word) : Statement (.eorAbx w) := rfl
theorem eorAby (w : Word) : Statement (.eorAby w) := rfl
theorem eorIzx (z : Byte) : Statement (.eorIzx z) := rfl
theorem eorIzy (z : Byte) : Statement (.eorIzy z) := rfl
theorem bitZp (z : Byte) : Statement (.bitZp z) := rfl
theorem bitAbs (w : Word) : Statement (.bitAbs w) := rfl
theorem incZp (z : Byte) : Statement (.incZp z) := rfl
theorem incZpx (z : Byte) : Statement (.incZpx z) := rfl
theorem incAbs (w : Word) : Statement (.incAbs w) := rfl
theorem incAbx (w : Word) : Statement (.incAbx w) := rfl
theorem decZp (z : Byte) : Statement (.decZp z) := rfl
theorem decZpx (z : Byte) : Statement (.decZpx z) := rfl
theorem decAbs (w : Word) : Statement (.decAbs w) := rfl
theorem decAbx (w : Word) : Statement (.decAbx w) := rfl
theorem inx : Statement .inx := rfl
theorem iny : Statement .iny := rfl
theorem dex : Statement .dex := rfl
theorem dey : Statement .dey := rfl
theorem aslAcc : Statement .aslAcc := rfl
theorem aslZp (z : Byte) : Statement (.aslZp z) := rfl
theorem aslZpx (z : Byte) : Statement (.aslZpx z) := rfl
theorem aslAbs (w : Word) : Statement (.aslAbs w) := rfl
theorem aslAbx (w : Word) : Statement (.aslAbx w) := rfl
theorem lsrAcc : Statement .lsrAcc := rfl
theorem lsrZp (z : Byte) : Statement (.lsrZp z) := rfl
theorem lsrZpx (z : Byte) : Statement (.lsrZpx z) := rfl
theorem lsrAbs (w : Word) : Statement (.lsrAbs w) := rfl
theorem lsrAbx (w : Word) : Statement (.lsrAbx w) := rfl
theorem rolAcc : Statement .rolAcc := rfl
theorem rolZp (z : Byte) : Statement (.rolZp z) := rfl
theorem rolZpx (z : Byte) : Statement (.rolZpx z) := rfl
theorem rolAbs (w : Word) : Statement (.rolAbs w) := rfl
theorem rolAbx (w : Word) : Statement (.rolAbx w) := rfl
theorem rorAcc : Statement .rorAcc := rfl
theorem rorZp (z : Byte) : Statement (.rorZp z) := rfl
theorem rorZpx (z : Byte) : Statement (.rorZpx z) := rfl
theorem rorAbs (w : Word) : Statement (.rorAbs w) := rfl
theorem rorAbx (w : Word) : Statement (.rorAbx w) := rfl
theorem bcc (d : Byte) : Statement (.bcc d) := rfl
theorem bcs (d : Byte) : Statement (.bcs d) := rfl
theorem beq (d : Byte) : Statement (.beq d) := rfl
theorem bne (d : Byte) : Statement (.bne d) := rfl
theorem bmi (d : Byte) : Statement (.bmi d) := rfl
theorem bpl (d : Byte) : Statement (.bpl d) := rfl
theorem bvc (d : Byte) : Statement (.bvc d) := rfl
theorem bvs (d : Byte) : Statement (.bvs d) := rfl
theorem jmpAbs (w : Word) : Statement (.jmpAbs w) := rfl
theorem jmpInd (w : Word) : Statement (.jmpInd w) := rfl
theorem pha : Statement .pha := rfl
theorem php : Statement .php := rfl
theorem pla : Statement .pla := rfl
theorem plp : Statement .plp := rfl
theorem jsr (w : Word) : Statement (.jsr w) := rfl
theorem rts : Statement .rts := rfl
theorem brk : Statement .brk := rfl
theorem rti : Statement .rti := rfl
theorem cmpImm (v : Byte) : Statement (.cmpImm v) := rfl
theorem cmpZp (z : Byte) : Statement (.cmpZp z) := rfl
theorem cmpZpx (z : Byte) : Statement (.cmpZpx z) := rfl
theorem cmpAbs (w : Word) : Statement (.cmpAbs w) := rfl
theorem cmpAbx (w : Word) : Statement (.cmpAbx w) := rfl
theorem cmpAby (w : Word) : Statement (.cmpAby w) := rfl
theorem cmpIzx (z : Byte) : Statement (.cmpIzx z) := rfl
theorem cmpIzy (z : Byte) : Statement (.cmpIzy z) := rfl
theorem cpxImm (v : Byte) : Statement (.cpxImm v) := rfl
theorem cpxZp (z : Byte) : Statement (.cpxZp z) := rfl
theorem cpxAbs (w : Word) : Statement (.cpxAbs w) := rfl
theorem cpyImm (v : Byte) : Statement (.cpyImm v) := rfl
theorem cpyZp (z : Byte) : Statement (.cpyZp z) := rfl
theorem cpyAbs (w : Word) : Statement (.cpyAbs w) := rfl
theorem clc : Statement .clc := rfl
theorem sec : Statement .sec := rfl
theorem cli : Statement .cli := rfl
theorem sei : Statement .sei := rfl
theorem cld : Statement .cld := rfl
theorem sed : Statement .sed := rfl
theorem clv : Statement .clv := rfl
theorem nop : Statement .nop := rfl

end Sys2Proof.Laws.EncodedLength
end

