-- ==== Sys2Proof/Tests/Slice0.lean ====
section
/-! SUPPORT. The model's own tests: what well-formedness refuses, the decoding of every row of the opcode table
from its byte, single steps of 95_test_vectors.md, and for every obligation with hypotheses a named theorem
that meets them. Expected results are taken from spec/, not from the model. -/

namespace Sys2Proof.Tests

open Sys2Proof.Machine Sys2Proof.Claims

/-- A state with these registers, and memory that lists these cells. -/
def startState (r : Registers) (cells : List Host.Cell) : State :=
  { State.reset with
    a := r.a, x := r.x, y := r.y, pc := r.pc, sp := r.sp, p := r.p
    mem := (State.reset.loadMemoryImage cells).mem }

/-- The outcome is a next state with these registers and outputs, whose memory is that of `before` with these
cells written. -/
def leaves (o : Host.Outcome State Fault Refusal) (r : Registers) (before : State) (written : List Host.Cell)
    (out : StepOutput) : Bool :=
  match o with
  | .next t => t.inspectRegisters == r && t.mem == (before.loadMemoryImage written).mem && t.out == out
  | .fault _ => false
  | .refused _ => false

/-- One step from `s` leaves these registers, written cells and outputs. -/
def stepLeaves (s : State) (r : Registers) (written : List Host.Cell) (out : StepOutput) : Bool :=
  leaves (step s) r s written out

/-- BRK under a given policy: the machine's own policy has no value a test could use (log entry 3). -/
def breakUnder (policy : BrkPcPolicy) (s : State) : Host.Outcome State Fault Refusal :=
  .next ((s.beginStep 7 .implied).takeBreak policy)

/-- A small state for the witnesses: PC 0x8000, S 0xFF, the bytes at 0x8000 and after it. -/
def witnessState (bytes : List Byte) : State :=
  startState ⟨0x80, 0x01, 0x02, 0x8000, 0xFF, 0x20⟩ (bytes.zipIdx.map fun c => (0x8000 + c.2, c.1))

/-! ### Well-formedness refuses a mnemonic in a mode it has no opcode in (30_encoding.md R107) -/

theorem smoke_sta_immediate_is_refused : legalPair .sta (.data (.immediate 0x12)) = false := by decide

theorem smoke_stx_zeroPageX_is_refused : legalPair .stx (.data (.zeroPageX 0x12)) = false := by decide

theorem smoke_ldx_absoluteX_is_refused : legalPair .ldx (.data (.absoluteX 0x1234)) = false := by decide

theorem smoke_ldy_absoluteY_is_refused : legalPair .ldy (.data (.absoluteY 0x1234)) = false := by decide

theorem smoke_bit_immediate_is_refused : legalPair .bit (.data (.immediate 0x12)) = false := by decide

theorem smoke_inc_accumulator_is_refused : legalPair .inc .accumulator = false := by decide

theorem smoke_asl_absoluteY_is_refused : legalPair .asl (.data (.absoluteY 0x1234)) = false := by decide

theorem smoke_asl_implied_is_refused : legalPair .asl .implied = false := by decide

theorem smoke_jsr_indirect_is_refused : legalPair .jsr (.indirect 0x1234) = false := by decide

theorem smoke_jmp_relative_is_refused : legalPair .jmp (.relative 0x12) = false := by decide

theorem smoke_bcc_absolute_is_refused : legalPair .bcc (.data (.absolute 0x1234)) = false := by decide

theorem smoke_cpx_zeroPageX_is_refused : legalPair .cpx (.data (.zeroPageX 0x12)) = false := by decide

theorem smoke_lda_indirect_is_refused : legalPair .lda (.indirect 0x1234) = false := by decide

theorem smoke_nop_immediate_is_refused : legalPair .nop (.data (.immediate 0x12)) = false := by decide

/-- The table has 151 legal pairs (30_encoding.md R107). -/
theorem test_there_are_151_legal_pairs :
    (([Mnemonic.adc, .sbc, .lda, .ldx, .ldy, .sta, .stx, .sty, .tax, .tay, .txa, .tya, .tsx, .txs] ++
      [Mnemonic.and, .ora, .eor, .bit, .inc, .dec, .inx, .iny, .dex, .dey, .asl, .lsr, .rol, .ror] ++
      [Mnemonic.bcc, .bcs, .beq, .bne, .bmi, .bpl, .bvc, .bvs, .jmp, .pha, .php, .pla, .plp, .jsr] ++
      [Mnemonic.rts, .brk, .rti, .cmp, .cpx, .cpy, .clc, .sec, .cli, .sei, .cld, .sed, .clv, .nop]).map
        fun m => m.modes.length).sum = 151 := by decide

/-- Every constructor is a row of the table, so every instruction is well formed. -/
theorem test_every_instruction_is_well_formed (i : Instr) : i.wellFormed = true := by
  cases i <;> rfl

/-! ### Decoding: each row's byte (30_encoding.md R107), then operand bytes 34 and 92, low byte first -/

theorem test_decode_implied :
    ∀ c ∈ [(([0x00] : List Byte), Instr.brk), ([0x08], .php), ([0x18], .clc), ([0x28], .plp), ([0x38], .sec),
        ([0x40], .rti), ([0x48], .pha), ([0x58], .cli), ([0x60], .rts), ([0x68], .pla), ([0x78], .sei),
        ([0x88], .dey), ([0x8A], .txa), ([0x98], .tya), ([0x9A], .txs), ([0xA8], .tay), ([0xAA], .tax),
        ([0xB8], .clv), ([0xBA], .tsx), ([0xC8], .iny), ([0xCA], .dex), ([0xD8], .cld), ([0xE8], .inx),
        ([0xEA], .nop), ([0xF8], .sed)],
      decode c.1 = .ok (c.2, []) := by decide

theorem test_decode_indexed_indirect_x :
    ∀ c ∈ [(([0x01, 0x34] : List Byte), Instr.oraIzx 0x34), ([0x21, 0x34], .andIzx 0x34),
        ([0x41, 0x34], .eorIzx 0x34), ([0x61, 0x34], .adcIzx 0x34), ([0x81, 0x34], .staIzx 0x34),
        ([0xA1, 0x34], .ldaIzx 0x34), ([0xC1, 0x34], .cmpIzx 0x34), ([0xE1, 0x34], .sbcIzx 0x34)],
      decode c.1 = .ok (c.2, []) := by decide

theorem test_decode_zero_page :
    ∀ c ∈ [(([0x05, 0x34] : List Byte), Instr.oraZp 0x34), ([0x06, 0x34], .aslZp 0x34),
        ([0x24, 0x34], .bitZp 0x34), ([0x25, 0x34], .andZp 0x34), ([0x26, 0x34], .rolZp 0x34),
        ([0x45, 0x34], .eorZp 0x34), ([0x46, 0x34], .lsrZp 0x34), ([0x65, 0x34], .adcZp 0x34),
        ([0x66, 0x34], .rorZp 0x34), ([0x84, 0x34], .styZp 0x34), ([0x85, 0x34], .staZp 0x34),
        ([0x86, 0x34], .stxZp 0x34), ([0xA4, 0x34], .ldyZp 0x34), ([0xA5, 0x34], .ldaZp 0x34),
        ([0xA6, 0x34], .ldxZp 0x34), ([0xC4, 0x34], .cpyZp 0x34), ([0xC5, 0x34], .cmpZp 0x34),
        ([0xC6, 0x34], .decZp 0x34), ([0xE4, 0x34], .cpxZp 0x34), ([0xE5, 0x34], .sbcZp 0x34),
        ([0xE6, 0x34], .incZp 0x34)],
      decode c.1 = .ok (c.2, []) := by decide

theorem test_decode_immediate :
    ∀ c ∈ [(([0x09, 0x34] : List Byte), Instr.oraImm 0x34), ([0x29, 0x34], .andImm 0x34),
        ([0x49, 0x34], .eorImm 0x34), ([0x69, 0x34], .adcImm 0x34), ([0xA0, 0x34], .ldyImm 0x34),
        ([0xA2, 0x34], .ldxImm 0x34), ([0xA9, 0x34], .ldaImm 0x34), ([0xC0, 0x34], .cpyImm 0x34),
        ([0xC9, 0x34], .cmpImm 0x34), ([0xE0, 0x34], .cpxImm 0x34), ([0xE9, 0x34], .sbcImm 0x34)],
      decode c.1 = .ok (c.2, []) := by decide

theorem test_decode_accumulator :
    ∀ c ∈ [(([0x0A] : List Byte), Instr.aslAcc), ([0x2A], .rolAcc), ([0x4A], .lsrAcc), ([0x6A], .rorAcc)],
      decode c.1 = .ok (c.2, []) := by decide

theorem test_decode_absolute :
    ∀ c ∈ [(([0x0D, 0x34, 0x92] : List Byte), Instr.oraAbs 0x9234), ([0x0E, 0x34, 0x92], .aslAbs 0x9234),
        ([0x20, 0x34, 0x92], .jsr 0x9234), ([0x2C, 0x34, 0x92], .bitAbs 0x9234),
        ([0x2D, 0x34, 0x92], .andAbs 0x9234), ([0x2E, 0x34, 0x92], .rolAbs 0x9234),
        ([0x4C, 0x34, 0x92], .jmpAbs 0x9234), ([0x4D, 0x34, 0x92], .eorAbs 0x9234),
        ([0x4E, 0x34, 0x92], .lsrAbs 0x9234), ([0x6D, 0x34, 0x92], .adcAbs 0x9234),
        ([0x6E, 0x34, 0x92], .rorAbs 0x9234), ([0x8C, 0x34, 0x92], .styAbs 0x9234),
        ([0x8D, 0x34, 0x92], .staAbs 0x9234), ([0x8E, 0x34, 0x92], .stxAbs 0x9234),
        ([0xAC, 0x34, 0x92], .ldyAbs 0x9234), ([0xAD, 0x34, 0x92], .ldaAbs 0x9234),
        ([0xAE, 0x34, 0x92], .ldxAbs 0x9234), ([0xCC, 0x34, 0x92], .cpyAbs 0x9234),
        ([0xCD, 0x34, 0x92], .cmpAbs 0x9234), ([0xCE, 0x34, 0x92], .decAbs 0x9234),
        ([0xEC, 0x34, 0x92], .cpxAbs 0x9234), ([0xED, 0x34, 0x92], .sbcAbs 0x9234),
        ([0xEE, 0x34, 0x92], .incAbs 0x9234)],
      decode c.1 = .ok (c.2, []) := by decide

theorem test_decode_relative :
    ∀ c ∈ [(([0x10, 0x34] : List Byte), Instr.bpl 0x34), ([0x30, 0x34], .bmi 0x34), ([0x50, 0x34], .bvc 0x34),
        ([0x70, 0x34], .bvs 0x34), ([0x90, 0x34], .bcc 0x34), ([0xB0, 0x34], .bcs 0x34),
        ([0xD0, 0x34], .bne 0x34), ([0xF0, 0x34], .beq 0x34)],
      decode c.1 = .ok (c.2, []) := by decide

theorem test_decode_indirect_indexed_y :
    ∀ c ∈ [(([0x11, 0x34] : List Byte), Instr.oraIzy 0x34), ([0x31, 0x34], .andIzy 0x34),
        ([0x51, 0x34], .eorIzy 0x34), ([0x71, 0x34], .adcIzy 0x34), ([0x91, 0x34], .staIzy 0x34),
        ([0xB1, 0x34], .ldaIzy 0x34), ([0xD1, 0x34], .cmpIzy 0x34), ([0xF1, 0x34], .sbcIzy 0x34)],
      decode c.1 = .ok (c.2, []) := by decide

theorem test_decode_zero_page_x :
    ∀ c ∈ [(([0x15, 0x34] : List Byte), Instr.oraZpx 0x34), ([0x16, 0x34], .aslZpx 0x34),
        ([0x35, 0x34], .andZpx 0x34), ([0x36, 0x34], .rolZpx 0x34), ([0x55, 0x34], .eorZpx 0x34),
        ([0x56, 0x34], .lsrZpx 0x34), ([0x75, 0x34], .adcZpx 0x34), ([0x76, 0x34], .rorZpx 0x34),
        ([0x94, 0x34], .styZpx 0x34), ([0x95, 0x34], .staZpx 0x34), ([0xB4, 0x34], .ldyZpx 0x34),
        ([0xB5, 0x34], .ldaZpx 0x34), ([0xD5, 0x34], .cmpZpx 0x34), ([0xD6, 0x34], .decZpx 0x34),
        ([0xF5, 0x34], .sbcZpx 0x34), ([0xF6, 0x34], .incZpx 0x34)],
      decode c.1 = .ok (c.2, []) := by decide

theorem test_decode_absolute_y :
    ∀ c ∈ [(([0x19, 0x34, 0x92] : List Byte), Instr.oraAby 0x9234), ([0x39, 0x34, 0x92], .andAby 0x9234),
        ([0x59, 0x34, 0x92], .eorAby 0x9234), ([0x79, 0x34, 0x92], .adcAby 0x9234),
        ([0x99, 0x34, 0x92], .staAby 0x9234), ([0xB9, 0x34, 0x92], .ldaAby 0x9234),
        ([0xBE, 0x34, 0x92], .ldxAby 0x9234), ([0xD9, 0x34, 0x92], .cmpAby 0x9234),
        ([0xF9, 0x34, 0x92], .sbcAby 0x9234)],
      decode c.1 = .ok (c.2, []) := by decide

theorem test_decode_absolute_x :
    ∀ c ∈ [(([0x1D, 0x34, 0x92] : List Byte), Instr.oraAbx 0x9234), ([0x1E, 0x34, 0x92], .aslAbx 0x9234),
        ([0x3D, 0x34, 0x92], .andAbx 0x9234), ([0x3E, 0x34, 0x92], .rolAbx 0x9234),
        ([0x5D, 0x34, 0x92], .eorAbx 0x9234), ([0x5E, 0x34, 0x92], .lsrAbx 0x9234),
        ([0x7D, 0x34, 0x92], .adcAbx 0x9234), ([0x7E, 0x34, 0x92], .rorAbx 0x9234),
        ([0x9D, 0x34, 0x92], .staAbx 0x9234), ([0xBC, 0x34, 0x92], .ldyAbx 0x9234),
        ([0xBD, 0x34, 0x92], .ldaAbx 0x9234), ([0xDD, 0x34, 0x92], .cmpAbx 0x9234),
        ([0xDE, 0x34, 0x92], .decAbx 0x9234), ([0xFD, 0x34, 0x92], .sbcAbx 0x9234),
        ([0xFE, 0x34, 0x92], .incAbx 0x9234)],
      decode c.1 = .ok (c.2, []) := by decide

theorem test_decode_indirect :
    ∀ c ∈ [(([0x6C, 0x34, 0x92] : List Byte), Instr.jmpInd 0x9234)],
      decode c.1 = .ok (c.2, []) := by decide

theorem test_decode_zero_page_y :
    ∀ c ∈ [(([0x96, 0x34] : List Byte), Instr.stxZpy 0x34), ([0xB6, 0x34], .ldxZpy 0x34)],
      decode c.1 = .ok (c.2, []) := by decide


/-- The operand bytes an instruction lacks, and the bytes that are no opcode, are refused by name. -/
theorem test_decode_refuses_by_name :
    decode [] = .error .noBytes ∧ decode [0xA9] = .error (.missingOperandBytes 0xA9) ∧
      decode [0xAD, 0x34] = .error (.missingOperandBytes 0xAD) ∧
      decode [0x02] = .error (.unimplementedOpcode 0x02) ∧
      decode [0xFF, 0x01, 0x02] = .error (.unimplementedOpcode 0xFF) ∧
      decode [0xEB, 0x01] = .error (.unimplementedOpcode 0xEB) := by decide

/-- Table words: the second byte is bits 15 to 8, bits at or above `nbits` are 0. -/
theorem test_decodeTableWord :
    decodeTableWord 24 0x92348D = some (.staAbs 0x9234) ∧ decodeTableWord 8 0xFFFF8D = some (.staAbs 0x0000) ∧
      decodeTableWord 16 0xF8D0 = some (.bne 0xF8) ∧ decodeTableWord 8 0x02 = none := by decide

theorem test_withFetchWord_is_what_the_step_runs :
    stepLeaves (State.reset.withFetchWord 24 0x92348D) ⟨0x00, 0x00, 0x00, 0x8003, 0xFF, 0x00⟩ [] ⟨4, []⟩ = true ∧
      stepLeaves (State.reset.withFetchWord 16 0x42A9) ⟨0x42, 0x00, 0x00, 0x8002, 0xFF, 0x00⟩ [] ⟨2, []⟩ =
        true := by decide

/-! ### Reset and the host's operations -/

/-- 70_reset_and_hazards.md R330. -/
theorem test_reset_registers :
    State.reset.inspectRegisters = ⟨0x00, 0x00, 0x00, 0x8000, 0xFF, 0x00⟩ ∧ State.reset.pcStuck = false := by
  decide

/-- 00_scope.md R13, 10_state.md R27: values are masked to their width. -/
theorem test_loadRegisters_masks :
    (State.reset.loadRegisters ⟨0x142, 0x1FF, 0x100, 0x18000, 0x1FD, 0x1A5⟩).inspectRegisters =
      ⟨0x42, 0xFF, 0x00, 0x8000, 0xFD, 0xA5⟩ := by decide

/-- 00_scope.md R11: of two pairs for one cell the later holds. -/
theorem test_loadMemoryImage_last_pair_holds :
    (State.reset.loadMemoryImage [(0x10200, 0x11), (0x0200, 0x22)]).inspectMemory 0x0200 = 0x22 := by decide

/-! ### Flag transforms and the add core, the instances of 95_test_vectors.md sections 1.3 and 1.4 -/

theorem test_status_round_trip :
    [0x00, 0x10, 0x20, 0xFF, 0xCF, 0x30].map statusForPush = [0x30, 0x30, 0x30, 0xFF, 0xFF, 0x30] ∧
      [0x00, 0x10, 0x20, 0xFF, 0xCF, 0x30].map (fun p => restoreFromPull (statusForPush p)) =
        [0x20, 0x20, 0x20, 0xEF, 0xEF, 0x20] := by decide

theorem test_addCore_truth_table :
    addCore 0x01 0x01 false = ⟨0x02, false, false⟩ ∧ addCore 0x7F 0x01 false = ⟨0x80, false, true⟩ ∧
      addCore 0x01 0xFF false = ⟨0x00, true, false⟩ ∧ addCore 0x01 0x80 false = ⟨0x81, false, false⟩ ∧
      addCore 0xFF 0x01 false = ⟨0x00, true, false⟩ ∧ addCore 0x80 0x01 false = ⟨0x81, false, false⟩ ∧
      addCore 0x80 0x80 false = ⟨0x00, true, true⟩ ∧ addCore 0xFF 0xFF false = ⟨0xFE, true, false⟩ := by decide

/-! ### Single steps -/

-- 95_test_vectors.md section 2.1

theorem test_adc_V_ADD_01 :
    stepLeaves (startState ⟨0xFF, 0x00, 0x00, 0x8000, 0xFF, 0x20⟩ [(0x8000, 0x69), (0x8001, 0x01)])
      ⟨0x00, 0x00, 0x00, 0x8002, 0xFF, 0x23⟩ [] ⟨2, []⟩ = true := by decide

theorem test_adc_V_ADD_06 :
    stepLeaves (startState ⟨0x00, 0x00, 0x00, 0x8000, 0xFF, 0xE1⟩ [(0x8000, 0x69), (0x8001, 0x00)])
      ⟨0x01, 0x00, 0x00, 0x8002, 0xFF, 0x20⟩ [] ⟨2, []⟩ = true := by decide

theorem test_adc_V_ADD_09 :
    stepLeaves (startState ⟨0x99, 0x00, 0x00, 0x8000, 0xFF, 0x29⟩ [(0x8000, 0x69), (0x8001, 0x99)])
      ⟨0x33, 0x00, 0x00, 0x8002, 0xFF, 0x69⟩ [] ⟨2, []⟩ = true := by decide

theorem test_adc_V_ADD_13 :
    stepLeaves (startState ⟨0x01, 0x01, 0x00, 0x8000, 0xFF, 0x20⟩ [(0x8000, 0x7D), (0x8001, 0xFF), (0x8002, 0x12), (0x1300, 0x01)])
      ⟨0x02, 0x01, 0x00, 0x8003, 0xFF, 0x20⟩ [] ⟨5, []⟩ = true := by decide

theorem test_adc_V_ADD_15 :
    stepLeaves (startState ⟨0x01, 0x01, 0x00, 0x8000, 0xFF, 0x20⟩ [(0x8000, 0x61), (0x8001, 0xFE), (0x0000, 0x12), (0x00FF, 0x34), (0x1234, 0x0F)])
      ⟨0x10, 0x01, 0x00, 0x8002, 0xFF, 0x20⟩ [] ⟨6, []⟩ = true := by decide

theorem test_adc_V_ADD_16 :
    stepLeaves (startState ⟨0x01, 0x00, 0x10, 0x8000, 0xFF, 0x20⟩ [(0x8000, 0x71), (0x8001, 0x10), (0x0010, 0xF8), (0x0011, 0x12), (0x1308, 0x7E)])
      ⟨0x7F, 0x00, 0x10, 0x8002, 0xFF, 0x20⟩ [] ⟨6, []⟩ = true := by decide

theorem test_sbc_V_ADD_22 :
    stepLeaves (startState ⟨0x50, 0x00, 0x00, 0x8000, 0xFF, 0x21⟩ [(0x8000, 0xE9), (0x8001, 0xB0)])
      ⟨0xA0, 0x00, 0x00, 0x8002, 0xFF, 0xE0⟩ [] ⟨2, []⟩ = true := by decide

theorem test_sbc_V_ADD_26 :
    stepLeaves (startState ⟨0x10, 0x00, 0x00, 0x8000, 0xFF, 0x29⟩ [(0x8000, 0xE9), (0x8001, 0x01)])
      ⟨0x0F, 0x00, 0x00, 0x8002, 0xFF, 0x29⟩ [] ⟨2, []⟩ = true := by decide

theorem test_sbc_V_ADD_29 :
    stepLeaves (startState ⟨0x00, 0x00, 0x00, 0x8000, 0xFF, 0x21⟩ [(0x8000, 0xED), (0x8001, 0x00), (0x8002, 0x03), (0x0300, 0x80)])
      ⟨0x80, 0x00, 0x00, 0x8003, 0xFF, 0xE0⟩ [] ⟨4, []⟩ = true := by decide

theorem test_sbc_V_ADD_30 :
    stepLeaves (startState ⟨0x05, 0x01, 0x00, 0x8000, 0xFF, 0x21⟩ [(0x8000, 0xFD), (0x8001, 0xFF), (0x8002, 0x12), (0x1300, 0x02)])
      ⟨0x03, 0x01, 0x00, 0x8003, 0xFF, 0x21⟩ [] ⟨5, []⟩ = true := by decide

theorem test_sbc_V_ADD_33 :
    stepLeaves (startState ⟨0x10, 0x00, 0x01, 0x8000, 0xFF, 0x20⟩ [(0x8000, 0xF1), (0x8001, 0x20), (0x0020, 0xFF), (0x0021, 0x02), (0x0300, 0x0F)])
      ⟨0x00, 0x00, 0x01, 0x8002, 0xFF, 0x23⟩ [] ⟨6, []⟩ = true := by decide

-- 95_test_vectors.md section 2.2

theorem test_lda_V_LST_05 :
    stepLeaves (startState ⟨0x00, 0xFF, 0x00, 0x8000, 0xFF, 0x20⟩ [(0x8000, 0xB5), (0x8001, 0x80), (0x007F, 0x11)])
      ⟨0x11, 0xFF, 0x00, 0x8002, 0xFF, 0x20⟩ [] ⟨4, []⟩ = true := by decide

theorem test_lda_V_LST_07 :
    stepLeaves (startState ⟨0x00, 0x00, 0x00, 0xFFFE, 0xFF, 0x20⟩ [(0xFFFE, 0xAD), (0xFFFF, 0x34), (0x0000, 0x12), (0x1234, 0x01)])
      ⟨0x01, 0x00, 0x00, 0x0001, 0xFF, 0x20⟩ [] ⟨4, []⟩ = true := by decide

theorem test_lda_V_LST_10 :
    stepLeaves (startState ⟨0x00, 0x01, 0x00, 0x8000, 0xFF, 0x20⟩ [(0x8000, 0xBD), (0x8001, 0xFF), (0x8002, 0xFF), (0x0000, 0x5A)])
      ⟨0x5A, 0x01, 0x00, 0x8003, 0xFF, 0x20⟩ [] ⟨5, []⟩ = true := by decide

theorem test_lda_V_LST_14 :
    stepLeaves (startState ⟨0x00, 0x00, 0x01, 0x8000, 0xFF, 0x20⟩ [(0x8000, 0xB1), (0x8001, 0x10), (0x0010, 0xFF), (0x0011, 0x02), (0x0300, 0x77)])
      ⟨0x77, 0x00, 0x01, 0x8002, 0xFF, 0x20⟩ [] ⟨6, []⟩ = true := by decide

theorem test_lda_V_LST_16 :
    stepLeaves (startState ⟨0x00, 0x00, 0x00, 0x8000, 0xFF, 0x20⟩ [(0x8000, 0xB1), (0x8001, 0xFF), (0x0000, 0x12), (0x00FF, 0x34), (0x1234, 0x79)])
      ⟨0x79, 0x00, 0x00, 0x8002, 0xFF, 0x20⟩ [] ⟨5, []⟩ = true := by decide

theorem test_ldx_V_LST_19 :
    stepLeaves (startState ⟨0x00, 0x00, 0x02, 0x8000, 0xFF, 0x20⟩ [(0x8000, 0xB6), (0x8001, 0xFF), (0x0001, 0x80)])
      ⟨0x00, 0x80, 0x02, 0x8002, 0xFF, 0xA0⟩ [] ⟨4, []⟩ = true := by decide

theorem test_ldx_V_LST_21 :
    stepLeaves (startState ⟨0x00, 0x00, 0x01, 0x8000, 0xFF, 0x20⟩ [(0x8000, 0xBE), (0x8001, 0xFF), (0x8002, 0x03), (0x0400, 0x13)])
      ⟨0x00, 0x13, 0x01, 0x8003, 0xFF, 0x20⟩ [] ⟨5, []⟩ = true := by decide

theorem test_ldy_V_LST_24 :
    stepLeaves (startState ⟨0x00, 0x01, 0x00, 0x8000, 0xFF, 0x20⟩ [(0x8000, 0xB4), (0x8001, 0x10), (0x0011, 0x02)])
      ⟨0x00, 0x01, 0x02, 0x8002, 0xFF, 0x20⟩ [] ⟨4, []⟩ = true := by decide

theorem test_ldy_V_LST_26 :
    stepLeaves (startState ⟨0x00, 0x10, 0x00, 0x8000, 0xFF, 0x20⟩ [(0x8000, 0xBC), (0x8001, 0x00), (0x8002, 0x03), (0x0310, 0x90)])
      ⟨0x00, 0x10, 0x90, 0x8003, 0xFF, 0xA0⟩ [] ⟨4, []⟩ = true := by decide

theorem test_sta_V_LST_27 :
    stepLeaves (startState ⟨0x9C, 0x00, 0x00, 0x8000, 0xFF, 0x22⟩ [(0x8000, 0x85), (0x8001, 0x10)])
      ⟨0x9C, 0x00, 0x00, 0x8002, 0xFF, 0x22⟩ [(0x0010, 0x9C)] ⟨3, []⟩ = true := by decide

theorem test_sta_V_LST_30 :
    stepLeaves (startState ⟨0x77, 0x01, 0x00, 0x8000, 0xFF, 0x20⟩ [(0x8000, 0x9D), (0x8001, 0xFF), (0x8002, 0x02)])
      ⟨0x77, 0x01, 0x00, 0x8003, 0xFF, 0x20⟩ [(0x0300, 0x77)] ⟨6, []⟩ = true := by decide

theorem test_sta_V_LST_34 :
    stepLeaves (startState ⟨0x16, 0x00, 0xF5, 0x8000, 0xFF, 0x20⟩ [(0x8000, 0x91), (0x8001, 0x32), (0x0032, 0x10), (0x0033, 0x16)])
      ⟨0x16, 0x00, 0xF5, 0x8002, 0xFF, 0x20⟩ [(0x1705, 0x16)] ⟨7, []⟩ = true := by decide

theorem test_sta_V_LST_36 :
    stepLeaves (startState ⟨0xEA, 0x00, 0x00, 0x8000, 0xFF, 0x20⟩ [(0x8000, 0x8D), (0x8001, 0x01), (0x8002, 0x80)])
      ⟨0xEA, 0x00, 0x00, 0x8003, 0xFF, 0x20⟩ [(0x8001, 0xEA)] ⟨4, []⟩ = true := by decide

theorem test_stx_V_LST_38 :
    stepLeaves (startState ⟨0x00, 0x0B, 0x10, 0x8000, 0xFF, 0x20⟩ [(0x8000, 0x96), (0x8001, 0xF8)])
      ⟨0x00, 0x0B, 0x10, 0x8002, 0xFF, 0x20⟩ [(0x0008, 0x0B)] ⟨4, []⟩ = true := by decide

theorem test_sty_V_LST_41 :
    stepLeaves (startState ⟨0x00, 0x01, 0x66, 0x8000, 0xFF, 0x20⟩ [(0x8000, 0x94), (0x8001, 0x30)])
      ⟨0x00, 0x01, 0x66, 0x8002, 0xFF, 0x20⟩ [(0x0031, 0x66)] ⟨4, []⟩ = true := by decide

theorem test_tax_V_LST_43 :
    stepLeaves (startState ⟨0x80, 0x00, 0x00, 0x8000, 0xFF, 0x20⟩ [(0x8000, 0xAA)])
      ⟨0x80, 0x80, 0x00, 0x8001, 0xFF, 0xA0⟩ [] ⟨2, []⟩ = true := by decide

theorem test_tay_V_LST_45 :
    stepLeaves (startState ⟨0x00, 0x00, 0x01, 0x8000, 0xFF, 0x20⟩ [(0x8000, 0xA8)])
      ⟨0x00, 0x00, 0x00, 0x8001, 0xFF, 0x22⟩ [] ⟨2, []⟩ = true := by decide

theorem test_txa_V_LST_46 :
    stepLeaves (startState ⟨0xFF, 0x7F, 0x00, 0x8000, 0xFF, 0xA2⟩ [(0x8000, 0x8A)])
      ⟨0x7F, 0x7F, 0x00, 0x8001, 0xFF, 0x20⟩ [] ⟨2, []⟩ = true := by decide

theorem test_tya_V_LST_47 :
    stepLeaves (startState ⟨0x00, 0x00, 0xFF, 0x8000, 0xFF, 0x20⟩ [(0x8000, 0x98)])
      ⟨0xFF, 0x00, 0xFF, 0x8001, 0xFF, 0xA0⟩ [] ⟨2, []⟩ = true := by decide

theorem test_tsx_V_LST_49 :
    stepLeaves (startState ⟨0x00, 0x12, 0x00, 0x8000, 0x00, 0x20⟩ [(0x8000, 0xBA)])
      ⟨0x00, 0x00, 0x00, 0x8001, 0x00, 0x22⟩ [] ⟨2, []⟩ = true := by decide

theorem test_txs_V_LST_51 :
    stepLeaves (startState ⟨0x00, 0x80, 0x00, 0x8000, 0xFF, 0x22⟩ [(0x8000, 0x9A)])
      ⟨0x00, 0x80, 0x00, 0x8001, 0x80, 0x22⟩ [] ⟨2, []⟩ = true := by decide

-- 95_test_vectors.md section 2.3

theorem test_and_V_LOG_02 :
    stepLeaves (startState ⟨0x9F, 0x00, 0x00, 0x8000, 0xFF, 0x63⟩ [(0x8000, 0x29), (0x8001, 0xF0)])
      ⟨0x90, 0x00, 0x00, 0x8002, 0xFF, 0xE1⟩ [] ⟨2, []⟩ = true := by decide

theorem test_and_V_LOG_09 :
    stepLeaves (startState ⟨0xAA, 0x00, 0xFF, 0x8000, 0xFF, 0x20⟩ [(0x8000, 0x31), (0x8001, 0x10), (0x0010, 0x01), (0x0011, 0x03), (0x0400, 0xA0)])
      ⟨0xA0, 0x00, 0xFF, 0x8002, 0xFF, 0xA0⟩ [] ⟨6, []⟩ = true := by decide

theorem test_eor_V_LOG_17 :
    stepLeaves (startState ⟨0xFF, 0xF0, 0x00, 0x8000, 0xFF, 0x20⟩ [(0x8000, 0x55), (0x8001, 0x10), (0x0000, 0x0F)])
      ⟨0xF0, 0xF0, 0x00, 0x8002, 0xFF, 0xA0⟩ [] ⟨4, []⟩ = true := by decide

theorem test_eor_V_LOG_18 :
    stepLeaves (startState ⟨0x01, 0x00, 0x01, 0x8000, 0xFF, 0x20⟩ [(0x8000, 0x59), (0x8001, 0xFF), (0x8002, 0x03), (0x0400, 0x01)])
      ⟨0x00, 0x00, 0x01, 0x8003, 0xFF, 0x22⟩ [] ⟨5, []⟩ = true := by decide

theorem test_bit_V_LOG_20 :
    stepLeaves (startState ⟨0xFF, 0x00, 0x00, 0x8000, 0xFF, 0xE2⟩ [(0x8000, 0x2C), (0x8001, 0x00), (0x8002, 0x03), (0x0300, 0x3F)])
      ⟨0xFF, 0x00, 0x00, 0x8003, 0xFF, 0x20⟩ [] ⟨4, []⟩ = true := by decide

theorem test_bit_V_LOG_21 :
    stepLeaves (startState ⟨0x01, 0x00, 0x00, 0x8000, 0xFF, 0x20⟩ [(0x8000, 0x24), (0x8001, 0x10), (0x0010, 0xC0)])
      ⟨0x01, 0x00, 0x00, 0x8002, 0xFF, 0xE2⟩ [] ⟨3, []⟩ = true := by decide

theorem test_inc_V_LOG_24 :
    stepLeaves (startState ⟨0x00, 0x00, 0x00, 0x8000, 0xFF, 0x20⟩ [(0x8000, 0xE6), (0x8001, 0x10), (0x0010, 0xFF)])
      ⟨0x00, 0x00, 0x00, 0x8002, 0xFF, 0x22⟩ [(0x0010, 0x00)] ⟨5, []⟩ = true := by decide

theorem test_inc_V_LOG_28 :
    stepLeaves (startState ⟨0x00, 0x01, 0x00, 0x8000, 0xFF, 0x20⟩ [(0x8000, 0xFE), (0x8001, 0xFF), (0x8002, 0x03), (0x0400, 0x0F)])
      ⟨0x00, 0x01, 0x00, 0x8003, 0xFF, 0x20⟩ [(0x0400, 0x10)] ⟨8, []⟩ = true := by decide

theorem test_dec_V_LOG_29 :
    stepLeaves (startState ⟨0x00, 0x00, 0x00, 0x8000, 0xFF, 0x20⟩ [(0x8000, 0xC6), (0x8001, 0x10), (0x0010, 0x00)])
      ⟨0x00, 0x00, 0x00, 0x8002, 0xFF, 0xA0⟩ [(0x0010, 0xFF)] ⟨5, []⟩ = true := by decide

theorem test_dec_V_LOG_30 :
    stepLeaves (startState ⟨0x00, 0xFF, 0x00, 0x8000, 0xFF, 0x20⟩ [(0x8000, 0xD6), (0x8001, 0x10), (0x000F, 0x80)])
      ⟨0x00, 0xFF, 0x00, 0x8002, 0xFF, 0x20⟩ [(0x000F, 0x7F)] ⟨6, []⟩ = true := by decide

theorem test_inx_V_LOG_33 :
    stepLeaves (startState ⟨0x00, 0xFF, 0x00, 0x8000, 0xFF, 0x20⟩ [(0x8000, 0xE8)])
      ⟨0x00, 0x00, 0x00, 0x8001, 0xFF, 0x22⟩ [] ⟨2, []⟩ = true := by decide

theorem test_iny_V_LOG_35 :
    stepLeaves (startState ⟨0x00, 0x00, 0xFF, 0x8000, 0xFF, 0x20⟩ [(0x8000, 0xC8)])
      ⟨0x00, 0x00, 0x00, 0x8001, 0xFF, 0x22⟩ [] ⟨2, []⟩ = true := by decide

theorem test_dex_V_LOG_38 :
    stepLeaves (startState ⟨0x00, 0x00, 0x00, 0x8000, 0xFF, 0x20⟩ [(0x8000, 0xCA)])
      ⟨0x00, 0xFF, 0x00, 0x8001, 0xFF, 0xA0⟩ [] ⟨2, []⟩ = true := by decide

theorem test_dey_V_LOG_39 :
    stepLeaves (startState ⟨0x00, 0x00, 0x00, 0x8000, 0xFF, 0x20⟩ [(0x8000, 0x88)])
      ⟨0x00, 0x00, 0xFF, 0x8001, 0xFF, 0xA0⟩ [] ⟨2, []⟩ = true := by decide

theorem test_ora_V_LOG_43 :
    stepLeaves (startState ⟨0x00, 0x20, 0x00, 0x8000, 0xFF, 0x20⟩ [(0x8000, 0x15), (0x8001, 0xF0), (0x0010, 0x00)])
      ⟨0x00, 0x20, 0x00, 0x8002, 0xFF, 0x22⟩ [] ⟨4, []⟩ = true := by decide

theorem test_ora_V_LOG_44 :
    stepLeaves (startState ⟨0x0F, 0x00, 0x02, 0x8000, 0xFF, 0x20⟩ [(0x8000, 0x19), (0x8001, 0xFF), (0x8002, 0x02), (0x0301, 0x70)])
      ⟨0x7F, 0x00, 0x02, 0x8003, 0xFF, 0x20⟩ [] ⟨5, []⟩ = true := by decide

-- 95_test_vectors.md section 2.4

theorem test_asl_V_SHF_02 :
    stepLeaves (startState ⟨0x40, 0x00, 0x00, 0x8000, 0xFF, 0x21⟩ [(0x8000, 0x0A)])
      ⟨0x80, 0x00, 0x00, 0x8001, 0xFF, 0xA0⟩ [] ⟨2, []⟩ = true := by decide

theorem test_asl_V_SHF_06 :
    stepLeaves (startState ⟨0x00, 0x01, 0x00, 0x8000, 0xFF, 0x20⟩ [(0x8000, 0x1E), (0x8001, 0xFF), (0x8002, 0x03), (0x0400, 0x81)])
      ⟨0x00, 0x01, 0x00, 0x8003, 0xFF, 0x21⟩ [(0x0400, 0x02)] ⟨8, []⟩ = true := by decide

theorem test_lsr_V_SHF_08 :
    stepLeaves (startState ⟨0xFF, 0x00, 0x00, 0x8000, 0xFF, 0xA0⟩ [(0x8000, 0x4A)])
      ⟨0x7F, 0x00, 0x00, 0x8001, 0xFF, 0x21⟩ [] ⟨2, []⟩ = true := by decide

theorem test_lsr_V_SHF_11 :
    stepLeaves (startState ⟨0x00, 0x00, 0x00, 0x8000, 0xFF, 0x20⟩ [(0x8000, 0x4E), (0x8001, 0x00), (0x8002, 0x03), (0x0300, 0x03)])
      ⟨0x00, 0x00, 0x00, 0x8003, 0xFF, 0x21⟩ [(0x0300, 0x01)] ⟨6, []⟩ = true := by decide

theorem test_rol_V_SHF_13 :
    stepLeaves (startState ⟨0x80, 0x00, 0x00, 0x8000, 0xFF, 0x21⟩ [(0x8000, 0x2A)])
      ⟨0x01, 0x00, 0x00, 0x8001, 0xFF, 0x21⟩ [] ⟨2, []⟩ = true := by decide

theorem test_rol_V_SHF_18 :
    stepLeaves (startState ⟨0x00, 0x00, 0x00, 0x8000, 0xFF, 0x20⟩ [(0x8000, 0x2E), (0x8001, 0x00), (0x8002, 0x03), (0x0300, 0xFF)])
      ⟨0x00, 0x00, 0x00, 0x8003, 0xFF, 0xA1⟩ [(0x0300, 0xFE)] ⟨6, []⟩ = true := by decide

theorem test_ror_V_SHF_21 :
    stepLeaves (startState ⟨0x00, 0x00, 0x00, 0x8000, 0xFF, 0x21⟩ [(0x8000, 0x6A)])
      ⟨0x80, 0x00, 0x00, 0x8001, 0xFF, 0xA0⟩ [] ⟨2, []⟩ = true := by decide

theorem test_ror_V_SHF_26 :
    stepLeaves (startState ⟨0x00, 0xFF, 0x00, 0x8000, 0xFF, 0x20⟩ [(0x8000, 0x7E), (0x8001, 0x00), (0x8002, 0x03), (0x03FF, 0x01)])
      ⟨0x00, 0xFF, 0x00, 0x8003, 0xFF, 0x23⟩ [(0x03FF, 0x00)] ⟨7, []⟩ = true := by decide

-- 95_test_vectors.md section 2.5

theorem test_bmi_V_BRJ_10 :
    stepLeaves (startState ⟨0x00, 0x00, 0x00, 0x8000, 0xFF, 0xA0⟩ [(0x8000, 0x30), (0x8001, 0x05)])
      ⟨0x00, 0x00, 0x00, 0x8007, 0xFF, 0xA0⟩ [] ⟨2, []⟩ = true := by decide

theorem test_bvc_V_BRJ_14 :
    stepLeaves (startState ⟨0x00, 0x00, 0x00, 0x8000, 0xFF, 0x60⟩ [(0x8000, 0x50), (0x8001, 0x05)])
      ⟨0x00, 0x00, 0x00, 0x8002, 0xFF, 0x60⟩ [] ⟨2, []⟩ = true := by decide

theorem test_bvs_V_BRJ_16 :
    stepLeaves (startState ⟨0x00, 0x00, 0x00, 0x8000, 0xFF, 0x60⟩ [(0x8000, 0x70), (0x8001, 0x05)])
      ⟨0x00, 0x00, 0x00, 0x8007, 0xFF, 0x60⟩ [] ⟨2, []⟩ = true := by decide

theorem test_bne_V_BRJ_17 :
    stepLeaves (startState ⟨0x00, 0x00, 0x00, 0x800A, 0xFF, 0x20⟩ [(0x800A, 0xD0), (0x800B, 0xF8)])
      ⟨0x00, 0x00, 0x00, 0x8004, 0xFF, 0x20⟩ [] ⟨2, []⟩ = true := by decide

theorem test_bpl_V_BRJ_19 :
    stepLeaves (startState ⟨0x00, 0x00, 0x00, 0x8000, 0xFF, 0x20⟩ [(0x8000, 0x10), (0x8001, 0x80)])
      ⟨0x00, 0x00, 0x00, 0x7F82, 0xFF, 0x20⟩ [] ⟨2, []⟩ = true := by decide

theorem test_bcs_V_BRJ_22 :
    stepLeaves (startState ⟨0x00, 0x00, 0x00, 0x8000, 0xFF, 0x21⟩ [(0x8000, 0xB0), (0x8001, 0xFE)])
      ⟨0x00, 0x00, 0x00, 0x8000, 0xFF, 0x21⟩ [] ⟨2, []⟩ = true := by decide

theorem test_bcc_V_BRJ_24 :
    stepLeaves (startState ⟨0x00, 0x00, 0x00, 0x0000, 0xFF, 0x20⟩ [(0x0000, 0x90), (0x0001, 0x80)])
      ⟨0x00, 0x00, 0x00, 0xFF82, 0xFF, 0x20⟩ [] ⟨2, []⟩ = true := by decide

theorem test_bcc_V_BRJ_25 :
    stepLeaves (startState ⟨0x00, 0x00, 0x00, 0x80F0, 0xFF, 0x20⟩ [(0x80F0, 0x90), (0x80F1, 0x7F)])
      ⟨0x00, 0x00, 0x00, 0x8171, 0xFF, 0x20⟩ [] ⟨2, []⟩ = true := by decide

theorem test_beq_V_BRJ_26 :
    stepLeaves (startState ⟨0x00, 0x00, 0x00, 0xFFFE, 0xFF, 0x20⟩ [(0xFFFE, 0xF0), (0xFFFF, 0x01)])
      ⟨0x00, 0x00, 0x00, 0x0000, 0xFF, 0x20⟩ [] ⟨2, []⟩ = true := by decide

theorem test_jmp_V_BRJ_28 :
    stepLeaves (startState ⟨0x00, 0x00, 0x00, 0x8000, 0xFF, 0x20⟩ [(0x8000, 0x4C), (0x8001, 0x00), (0x8002, 0x80)])
      ⟨0x00, 0x00, 0x00, 0x8000, 0xFF, 0x20⟩ [] ⟨3, []⟩ = true := by decide

theorem test_jmp_V_BRJ_31 :
    stepLeaves (startState ⟨0x00, 0x00, 0x00, 0x8000, 0xFF, 0x20⟩ [(0x8000, 0x6C), (0x8001, 0xFF), (0x8002, 0x00), (0x0000, 0x40), (0x00FF, 0x00), (0x0100, 0x50)])
      ⟨0x00, 0x00, 0x00, 0x4000, 0xFF, 0x20⟩ [] ⟨5, []⟩ = true := by decide

-- 95_test_vectors.md section 2.6

theorem test_pha_V_STK_02 :
    stepLeaves (startState ⟨0x43, 0x00, 0x00, 0x8000, 0x00, 0x20⟩ [(0x8000, 0x48)])
      ⟨0x43, 0x00, 0x00, 0x8001, 0xFF, 0x20⟩ [(0x0100, 0x43)] ⟨3, [.stackOverflow]⟩ = true := by decide

theorem test_php_V_STK_03 :
    stepLeaves (startState ⟨0x00, 0x00, 0x00, 0x8000, 0xFF, 0x00⟩ [(0x8000, 0x08)])
      ⟨0x00, 0x00, 0x00, 0x8001, 0xFE, 0x00⟩ [(0x01FF, 0x30)] ⟨3, []⟩ = true := by decide

theorem test_pla_V_STK_09 :
    stepLeaves (startState ⟨0x00, 0x00, 0x00, 0x8000, 0xFF, 0x20⟩ [(0x8000, 0x68), (0x0100, 0x7F)])
      ⟨0x7F, 0x00, 0x00, 0x8001, 0x00, 0x20⟩ [] ⟨4, [.stackUnderflow]⟩ = true := by decide

theorem test_plp_V_STK_11 :
    stepLeaves (startState ⟨0x00, 0x00, 0x00, 0x8000, 0xFE, 0xFF⟩ [(0x8000, 0x28), (0x01FF, 0x00)])
      ⟨0x00, 0x00, 0x00, 0x8001, 0xFF, 0x20⟩ [] ⟨4, []⟩ = true := by decide

theorem test_plp_V_STK_14 :
    stepLeaves (startState ⟨0x00, 0x00, 0x00, 0x8000, 0xFF, 0x20⟩ [(0x8000, 0x28), (0x0100, 0x01)])
      ⟨0x00, 0x00, 0x00, 0x8001, 0x00, 0x21⟩ [] ⟨4, [.stackUnderflow]⟩ = true := by decide

theorem test_jsr_V_STK_18 :
    stepLeaves (startState ⟨0x00, 0x00, 0x00, 0x8000, 0x01, 0x20⟩ [(0x8000, 0x20), (0x8001, 0x34), (0x8002, 0x12)])
      ⟨0x00, 0x00, 0x00, 0x1234, 0xFF, 0x20⟩ [(0x0101, 0x80), (0x0100, 0x02)] ⟨6, [.stackOverflow]⟩ = true := by decide

theorem test_jsr_V_STK_19 :
    stepLeaves (startState ⟨0x00, 0x00, 0x00, 0xFFFE, 0xFF, 0x20⟩ [(0xFFFE, 0x20), (0xFFFF, 0x34), (0x0000, 0x12)])
      ⟨0x00, 0x00, 0x00, 0x1234, 0xFD, 0x20⟩ [(0x01FF, 0x00), (0x01FE, 0x00)] ⟨6, []⟩ = true := by decide

theorem test_rts_V_STK_21 :
    stepLeaves (startState ⟨0x00, 0x00, 0x00, 0x8000, 0xFD, 0x20⟩ [(0x8000, 0x60), (0x01FE, 0xFF), (0x01FF, 0xFF)])
      ⟨0x00, 0x00, 0x00, 0x0000, 0xFF, 0x20⟩ [] ⟨6, []⟩ = true := by decide

theorem test_rts_V_STK_23 :
    stepLeaves (startState ⟨0x00, 0x00, 0x00, 0x8000, 0xFE, 0x20⟩ [(0x8000, 0x60), (0x0100, 0x12), (0x01FF, 0x33)])
      ⟨0x00, 0x00, 0x00, 0x1234, 0x00, 0x20⟩ [] ⟨6, [.stackUnderflow]⟩ = true := by decide

/-- Under `unspecified` PC is stuck and no value of it is compared. -/
theorem test_brk_V_STK_24 :
    (((startState ⟨0x00, 0x00, 0x00, 0x8000, 0xFF, 0x20⟩ [(0x8000, 0x00), (0xFFFE, 0x00), (0xFFFF, 0x90)]).takeBreak .unspecified).setPc 0x0000).inspectRegisters = ⟨0x00, 0x00, 0x00, 0x0000, 0xFC, 0x24⟩ ∧
      ((startState ⟨0x00, 0x00, 0x00, 0x8000, 0xFF, 0x20⟩ [(0x8000, 0x00), (0xFFFE, 0x00), (0xFFFF, 0x90)]).takeBreak .unspecified).pcStuck = true := by decide

theorem test_brk_V_STK_26 :
    leaves (breakUnder .advance1 (startState ⟨0x00, 0x00, 0x00, 0x8000, 0xFF, 0x20⟩ [(0x8000, 0x00), (0xFFFE, 0x00), (0xFFFF, 0x90)]))
      ⟨0x00, 0x00, 0x00, 0x8001, 0xFC, 0x24⟩ (startState ⟨0x00, 0x00, 0x00, 0x8000, 0xFF, 0x20⟩ [(0x8000, 0x00), (0xFFFE, 0x00), (0xFFFF, 0x90)]) [(0x01FF, 0x80), (0x01FE, 0x02), (0x01FD, 0x30)] ⟨7, []⟩ = true := by decide

theorem test_brk_V_STK_27 :
    leaves (breakUnder .vector (startState ⟨0x00, 0x00, 0x00, 0x8000, 0xFF, 0x20⟩ [(0x8000, 0x00), (0xFFFE, 0x00), (0xFFFF, 0x90)]))
      ⟨0x00, 0x00, 0x00, 0x9000, 0xFC, 0x24⟩ (startState ⟨0x00, 0x00, 0x00, 0x8000, 0xFF, 0x20⟩ [(0x8000, 0x00), (0xFFFE, 0x00), (0xFFFF, 0x90)]) [(0x01FF, 0x80), (0x01FE, 0x02), (0x01FD, 0x30)] ⟨7, []⟩ = true := by decide

theorem test_brk_V_STK_29 :
    leaves (breakUnder .hold (startState ⟨0x00, 0x00, 0x00, 0x8000, 0x01, 0x00⟩ [(0x8000, 0x00)]))
      ⟨0x00, 0x00, 0x00, 0x8000, 0xFE, 0x04⟩ (startState ⟨0x00, 0x00, 0x00, 0x8000, 0x01, 0x00⟩ [(0x8000, 0x00)]) [(0x0101, 0x80), (0x0100, 0x02), (0x01FF, 0x30)] ⟨7, [.stackOverflow]⟩ = true := by decide

theorem test_rti_V_STK_31 :
    stepLeaves (startState ⟨0x00, 0x00, 0x00, 0x8000, 0xFC, 0x00⟩ [(0x8000, 0x40), (0x01FD, 0xD3), (0x01FE, 0x34), (0x01FF, 0x12)])
      ⟨0x00, 0x00, 0x00, 0x1234, 0xFF, 0xE3⟩ [] ⟨6, []⟩ = true := by decide

theorem test_rti_V_STK_33 :
    stepLeaves (startState ⟨0x00, 0x00, 0x00, 0x8000, 0xFE, 0x20⟩ [(0x8000, 0x40), (0x0100, 0xCD), (0x0101, 0xAB), (0x01FF, 0xFF)])
      ⟨0x00, 0x00, 0x00, 0xABCD, 0x01, 0xEF⟩ [] ⟨6, [.stackUnderflow]⟩ = true := by decide

-- 95_test_vectors.md section 2.7

theorem test_cmp_V_CMP_03 :
    stepLeaves (startState ⟨0x00, 0x00, 0x00, 0x8000, 0xFF, 0x20⟩ [(0x8000, 0xC9), (0x8001, 0x01)])
      ⟨0x00, 0x00, 0x00, 0x8002, 0xFF, 0xA0⟩ [] ⟨2, []⟩ = true := by decide

theorem test_cmp_V_CMP_06 :
    stepLeaves (startState ⟨0x7F, 0x00, 0x00, 0x8000, 0xFF, 0x61⟩ [(0x8000, 0xC9), (0x8001, 0x80)])
      ⟨0x7F, 0x00, 0x00, 0x8002, 0xFF, 0xE0⟩ [] ⟨2, []⟩ = true := by decide

theorem test_cmp_V_CMP_14 :
    stepLeaves (startState ⟨0x40, 0x00, 0x80, 0x8000, 0xFF, 0x20⟩ [(0x8000, 0xD1), (0x8001, 0x10), (0x0010, 0x80), (0x0011, 0x03), (0x0400, 0x41)])
      ⟨0x40, 0x00, 0x80, 0x8002, 0xFF, 0xA0⟩ [] ⟨6, []⟩ = true := by decide

theorem test_cpx_V_CMP_17 :
    stepLeaves (startState ⟨0x00, 0xFF, 0x00, 0x8000, 0xFF, 0x20⟩ [(0x8000, 0xEC), (0x8001, 0x00), (0x8002, 0x03), (0x0300, 0x7F)])
      ⟨0x00, 0xFF, 0x00, 0x8003, 0xFF, 0xA1⟩ [] ⟨4, []⟩ = true := by decide

theorem test_cpy_V_CMP_19 :
    stepLeaves (startState ⟨0x00, 0x00, 0x80, 0x8000, 0xFF, 0x20⟩ [(0x8000, 0xC4), (0x8001, 0x10), (0x0010, 0x80)])
      ⟨0x00, 0x00, 0x80, 0x8002, 0xFF, 0x23⟩ [] ⟨3, []⟩ = true := by decide

-- 95_test_vectors.md section 2.8

theorem test_clc_V_FLG_02 :
    stepLeaves (startState ⟨0x00, 0x00, 0x00, 0x8000, 0xFF, 0xFF⟩ [(0x8000, 0x18)])
      ⟨0x00, 0x00, 0x00, 0x8001, 0xFF, 0xFE⟩ [] ⟨2, []⟩ = true := by decide

theorem test_sec_V_FLG_04 :
    stepLeaves (startState ⟨0x00, 0x00, 0x00, 0x8000, 0xFF, 0x00⟩ [(0x8000, 0x38)])
      ⟨0x00, 0x00, 0x00, 0x8001, 0xFF, 0x01⟩ [] ⟨2, []⟩ = true := by decide

theorem test_cli_V_FLG_05 :
    stepLeaves (startState ⟨0x00, 0x00, 0x00, 0x8000, 0xFF, 0x24⟩ [(0x8000, 0x58)])
      ⟨0x00, 0x00, 0x00, 0x8001, 0xFF, 0x20⟩ [] ⟨2, []⟩ = true := by decide

theorem test_sei_V_FLG_06 :
    stepLeaves (startState ⟨0x00, 0x00, 0x00, 0x8000, 0xFF, 0x20⟩ [(0x8000, 0x78)])
      ⟨0x00, 0x00, 0x00, 0x8001, 0xFF, 0x24⟩ [] ⟨2, []⟩ = true := by decide

theorem test_cld_V_FLG_07 :
    stepLeaves (startState ⟨0x00, 0x00, 0x00, 0x8000, 0xFF, 0x28⟩ [(0x8000, 0xD8)])
      ⟨0x00, 0x00, 0x00, 0x8001, 0xFF, 0x20⟩ [] ⟨2, []⟩ = true := by decide

theorem test_sed_V_FLG_08 :
    stepLeaves (startState ⟨0x00, 0x00, 0x00, 0x8000, 0xFF, 0x20⟩ [(0x8000, 0xF8)])
      ⟨0x00, 0x00, 0x00, 0x8001, 0xFF, 0x28⟩ [] ⟨2, []⟩ = true := by decide

theorem test_clv_V_FLG_09 :
    stepLeaves (startState ⟨0x00, 0x00, 0x00, 0x8000, 0xFF, 0x60⟩ [(0x8000, 0xB8)])
      ⟨0x00, 0x00, 0x00, 0x8001, 0xFF, 0x20⟩ [] ⟨2, []⟩ = true := by decide

theorem test_nop_V_FLG_12 :
    stepLeaves (startState ⟨0x00, 0x00, 0x00, 0xFFFF, 0xFF, 0x20⟩ [(0xFFFF, 0xEA)])
      ⟨0x00, 0x00, 0x00, 0x0000, 0xFF, 0x20⟩ [] ⟨2, []⟩ = true := by decide

-- 95_test_vectors.md section 2.9

theorem test_unlisted_opcode_V_ILL_01 :
    step (startState ⟨0x11, 0x22, 0x33, 0x8000, 0x44, 0x65⟩ [(0x8000, 0x02)]) =
      .fault (.unimplementedOpcode 0x02 0x8000) := rfl

theorem test_unlisted_opcode_V_ILL_06 :
    step (startState ⟨0x11, 0x22, 0x33, 0x8000, 0x44, 0x65⟩ [(0x8000, 0xEB)]) =
      .fault (.unimplementedOpcode 0xEB 0x8000) := rfl

/-- While PC is stuck no step is defined (45_stack_subroutine_interrupt.md R226). -/
theorem test_step_at_a_stuck_pc_faults :
    step ((witnessState [0xEA]).takeBreak .unspecified) = .fault .pcStuck := rfl

/-- BRK as a step: every field but PC, whatever the machine's policy (45_stack_subroutine_interrupt.md R226;
the values of V-STK-24). -/
theorem test_brk_step_whatever_the_policy :
    ∃ t, step (witnessState [0x00]) = .next t ∧ t.sp = 0xFC ∧ t.p = 0x24 ∧ t.readByte 0x01FF = 0x80 ∧
      t.readByte 0x01FE = 0x02 ∧ t.readByte 0x01FD = 0x30 ∧ t.a = 0x80 ∧ t.x = 0x01 ∧ t.y = 0x02 ∧
      t.out = ⟨7, []⟩ := ⟨_, rfl, by decide⟩

/-! ### Witnesses: for each obligation with hypotheses, values that meet all of them -/

/-- A state whose step fetches at the top of memory and wraps. -/
def topState (bytes : List Byte) : State :=
  startState ⟨0x00, 0x00, 0x00, 0xFFFF, 0x00, 0x00⟩ (bytes.zipIdx.map fun c => (0xFFFF + c.2, c.1))

theorem witness_EncodeOfDecodeIsTheBytes :
    decode [0xEA] = .ok (.nop, []) ∧ decode [0xA9, 0xFF] = .ok (.ldaImm 0xFF, []) ∧
      decode [0x4C, 0x00, 0xFF, 0x11] = .ok (.jmpAbs 0xFF00, [0x11]) := by decide

theorem witness_StepRunsTheDecodedInstruction :
    (topState [0x4C, 0x34, 0x12]).pcStuck = false ∧
      decode [(topState [0x4C, 0x34, 0x12]).readByte 0xFFFF, (topState [0x4C, 0x34, 0x12]).readByte (0xFFFF + 1),
        (topState [0x4C, 0x34, 0x12]).readByte (0xFFFF + 2)] = .ok (.jmpAbs 0x1234, []) ∧
      (witnessState [0xEA]).pcStuck = false ∧
      decode [(witnessState [0xEA]).readByte 0x8000, (witnessState [0xEA]).readByte (0x8000 + 1),
        (witnessState [0xEA]).readByte (0x8000 + 2)] = .ok (.nop, [0x00, 0x00]) := by decide

theorem witness_StepRunsTheBytesInMemory :
    (topState [0x4C, 0x34, 0x12]).pcStuck = false ∧
      ∀ (k : Nat) (b : Byte), (encode (.jmpAbs 0x1234))[k]? = some b →
        (topState [0x4C, 0x34, 0x12]).readByte ((topState [0x4C, 0x34, 0x12]).pc + BitVec.ofNat 16 k) = b := by
  refine ⟨rfl, fun k b h => ?_⟩
  match k, h with
  | 0, h => exact Option.some.inj h
  | 1, h => exact Option.some.inj h
  | 2, h => exact Option.some.inj h

theorem witness_UnlistedOpcodeRaisesTheError :
    ((topState [0x02]).pcStuck = false ∧ (topState [0x02]).readByte (topState [0x02]).pc ∈ illegalOpcodes) ∧
      (witnessState [0xFF]).pcStuck = false ∧
      (witnessState [0xFF]).readByte (witnessState [0xFF]).pc ∈ illegalOpcodes := by decide

theorem witness_AStepStopsOnlyAtLookupOrStuckPc :
    ((witnessState [0xEA]).takeBreak .unspecified).pcStuck = true ∧
      (witnessState [0x80]).pcStuck = false ∧
      step (witnessState [0x80]) = .fault (.unimplementedOpcode 0x80 0x8000) := ⟨rfl, rfl, rfl⟩

theorem witness_ReadsAndWritesReduceTheAddress :
    State.reset.Inv ∧ 131071 % 65536 = 65535 % 65536 ∧ 65536 % 65536 ≠ 65535 % 65536 :=
  ⟨rfl, by decide⟩

theorem witness_LoadedImageIsReadBack :
    State.reset.Inv ∧ (∀ c ∈ [((65535, 0x11) : Host.Cell)], c.1 % 65536 ≠ 65536 % 65536) ∧
      [(65535, 0x11), (131071, 0x22)] = [((65535, 0x11) : Host.Cell)] ++ (131071, 0x22) :: [] ∧
      131071 % 65536 = 65535 % 65536 ∧ ∀ c' ∈ ([] : List Host.Cell), c'.1 % 65536 ≠ 65535 % 65536 :=
  ⟨rfl, by decide⟩

theorem witness_EveryStepKeepsMemoryCanonical :
    (topState [0x8D, 0xFF, 0xFF]).Inv ∧ ∃ t, step (topState [0x8D, 0xFF, 0xFF]) = .next t :=
  ⟨rfl, _, rfl⟩

theorem witness_DirectModesResolve :
    (topState [0xA9, 0x42]).readByte ((topState [0xA9, 0x42]).pc + 1) = 0x42 := by decide

theorem witness_AdcAddsWithCarry :
    ∀ c ∈ [(Instr.adcImm 0xFF, DataOperand.immediate 0xFF), (.adcZp 0xFF, .zeroPage 0xFF),
        (.adcZpx 0xFF, .zeroPageX 0xFF), (.adcAbs 0xFFFF, .absolute 0xFFFF), (.adcAbx 0xFFFF, .absoluteX 0xFFFF),
        (.adcAby 0xFFFF, .absoluteY 0xFFFF), (.adcIzx 0xFF, .indexedIndirectX 0xFF),
        (.adcIzy 0xFF, .indirectIndexedY 0xFF)],
      c.1.mnemonic = .adc ∧ c.1.operand = .data c.2 := by decide

theorem witness_SbcSubtractsWithBorrow :
    ∀ c ∈ [(Instr.sbcImm 0x00, DataOperand.immediate 0x00), (.sbcZp 0xFF, .zeroPage 0xFF),
        (.sbcZpx 0xFF, .zeroPageX 0xFF), (.sbcAbs 0xFFFF, .absolute 0xFFFF), (.sbcAbx 0xFFFF, .absoluteX 0xFFFF),
        (.sbcAby 0xFFFF, .absoluteY 0xFFFF), (.sbcIzx 0xFF, .indexedIndirectX 0xFF),
        (.sbcIzy 0xFF, .indirectIndexedY 0xFF)],
      c.1.mnemonic = .sbc ∧ c.1.operand = .data c.2 := by decide

theorem witness_LdaLoadsTheOperand :
    ∀ c ∈ [(Instr.ldaImm 0x00, DataOperand.immediate 0x00), (.ldaZp 0xFF, .zeroPage 0xFF),
        (.ldaZpx 0xFF, .zeroPageX 0xFF), (.ldaAbs 0xFFFF, .absolute 0xFFFF), (.ldaAbx 0xFFFF, .absoluteX 0xFFFF),
        (.ldaAby 0xFFFF, .absoluteY 0xFFFF), (.ldaIzx 0xFF, .indexedIndirectX 0xFF),
        (.ldaIzy 0xFF, .indirectIndexedY 0xFF)],
      c.1.mnemonic = .lda ∧ c.1.operand = .data c.2 := by decide

theorem witness_LdxAndLdyLoadTheOperand :
    (∀ c ∈ [(Instr.ldxImm 0x00, DataOperand.immediate 0x00), (.ldxZp 0xFF, .zeroPage 0xFF),
        (.ldxZpy 0xFF, .zeroPageY 0xFF), (.ldxAbs 0xFFFF, .absolute 0xFFFF), (.ldxAby 0xFFFF, .absoluteY 0xFFFF)],
      c.1.operand = .data c.2 ∧ c.1.mnemonic = .ldx) ∧
    ∀ c ∈ [(Instr.ldyImm 0x00, DataOperand.immediate 0x00), (.ldyZp 0xFF, .zeroPage 0xFF),
        (.ldyZpx 0xFF, .zeroPageX 0xFF), (.ldyAbs 0xFFFF, .absolute 0xFFFF), (.ldyAbx 0xFFFF, .absoluteX 0xFFFF)],
      c.1.operand = .data c.2 ∧ c.1.mnemonic = .ldy := by decide

theorem witness_StoresWriteOneCell :
    (witnessState []).Inv ∧
      ∀ c ∈ [(Instr.staZp 0xFF, DataOperand.zeroPage 0xFF, (0x80 : Byte)), (.staZpx 0xFF, .zeroPageX 0xFF, 0x80),
          (.staAbs 0xFFFF, .absolute 0xFFFF, 0x80), (.staAbx 0xFFFF, .absoluteX 0xFFFF, 0x80),
          (.staAby 0xFFFF, .absoluteY 0xFFFF, 0x80), (.staIzx 0xFF, .indexedIndirectX 0xFF, 0x80),
          (.staIzy 0xFF, .indirectIndexedY 0xFF, 0x80), (.stxZp 0xFF, .zeroPage 0xFF, 0x01),
          (.stxZpy 0xFF, .zeroPageY 0xFF, 0x01), (.stxAbs 0xFFFF, .absolute 0xFFFF, 0x01),
          (.styZp 0xFF, .zeroPage 0xFF, 0x02), (.styZpx 0xFF, .zeroPageX 0xFF, 0x02),
          (.styAbs 0xFFFF, .absolute 0xFFFF, 0x02)],
        c.1.operand = .data c.2.1 ∧
          (c.1.mnemonic, c.2.2) ∈ [(Mnemonic.sta, (witnessState []).a), (.stx, (witnessState []).x),
            (.sty, (witnessState []).y)] :=
  ⟨rfl, by decide⟩

theorem witness_LogicActsBitwiseOnA :
    (Instr.andImm 0xFF).operand = .data (.immediate 0xFF) ∧ (Instr.andImm 0xFF).mnemonic = .and ∧ and = and ∧
      (Instr.oraIzx 0xFF).operand = .data (.indexedIndirectX 0xFF) ∧ (Instr.oraIzx 0xFF).mnemonic = .ora ∧
      or = or ∧ (Instr.eorAby 0xFFFF).operand = .data (.absoluteY 0xFFFF) ∧
      (Instr.eorAby 0xFFFF).mnemonic = .eor ∧ xor = xor :=
  ⟨rfl, rfl, rfl, rfl, rfl, rfl, rfl, rfl, rfl⟩

theorem witness_BitTestsTheOperand :
    ((Instr.bitZp 0xFF).mnemonic = .bit ∧ (Instr.bitZp 0xFF).operand = .data (.zeroPage 0xFF)) ∧
      (Instr.bitAbs 0xFFFF).mnemonic = .bit ∧ (Instr.bitAbs 0xFFFF).operand = .data (.absolute 0xFFFF) := by decide

theorem witness_IncAndDecChangeOneCell :
    (witnessState []).Inv ∧
      ∀ c ∈ [(Instr.incZp 0xFF, DataOperand.zeroPage 0xFF, 1), (.incZpx 0xFF, .zeroPageX 0xFF, 1),
          (.incAbs 0xFFFF, .absolute 0xFFFF, 1), (.incAbx 0xFFFF, .absoluteX 0xFFFF, 1),
          (.decZp 0xFF, .zeroPage 0xFF, 255), (.decZpx 0xFF, .zeroPageX 0xFF, 255),
          (.decAbs 0xFFFF, .absolute 0xFFFF, 255), (.decAbx 0xFFFF, .absoluteX 0xFFFF, 255)],
        c.1.operand = .data c.2.1 ∧ (c.1.mnemonic, c.2.2) ∈ [(Mnemonic.inc, 1), (.dec, 255)] :=
  ⟨rfl, by decide⟩

/-- A is 0x80 and C is 0 in the witness state (43_shift_rotate.md R191 to R194). -/
theorem witness_ShiftsInAccumulatorModeChangeA :
    ∀ c ∈ [(Instr.aslAcc, 0x00, true), (.lsrAcc, 0x40, false), (.rolAcc, 0x00, true), (.rorAcc, 0x40, false)],
      c.1.operand = .accumulator ∧
        shiftOf c.1.mnemonic (witnessState []).a.toNat (getFlag (witnessState []).p .c) = some c.2 := by decide

/-- Every cell named here reads as 0x00 in the witness state. -/
theorem witness_ShiftsInMemoryModesChangeOneCell :
    (witnessState []).Inv ∧
      ∀ c ∈ [(Instr.aslZp 0xFF, DataOperand.zeroPage 0xFF), (.lsrZpx 0xFF, .zeroPageX 0xFF),
          (.rolAbs 0xFFFF, .absolute 0xFFFF), (.rorAbx 0xFFFF, .absoluteX 0xFFFF)],
        c.1.operand = .data c.2 ∧
          shiftOf c.1.mnemonic ((witnessState []).readByte (effectiveAddress c.2 (witnessState []))).toNat
            (getFlag (witnessState []).p .c) = some (0, false) :=
  ⟨rfl, by decide⟩

theorem witness_BranchesFollowTheirFlag :
    ∀ c ∈ [(Instr.bcc 0x80, (0x00 : Byte), true), (.bcc 0x7F, 0x01, false), (.bcs 0x80, 0x01, true),
        (.bcs 0x7F, 0x00, false), (.beq 0x80, 0x02, true), (.beq 0x7F, 0x00, false), (.bne 0x80, 0x00, true),
        (.bne 0x7F, 0x02, false), (.bmi 0x80, 0x80, true), (.bmi 0x7F, 0x00, false), (.bpl 0x80, 0x00, true),
        (.bpl 0x7F, 0x80, false), (.bvc 0x80, 0x00, true), (.bvc 0x7F, 0x40, false), (.bvs 0x80, 0x40, true),
        (.bvs 0x7F, 0x00, false)],
      c.1.operand = .relative (if c.2.2 then 0x80 else 0x7F) ∧
        branchCondition c.2.1 c.1.mnemonic = some c.2.2 := by decide

theorem witness_PopUndoesPush : (topState []).Inv ∧ (witnessState []).Inv := ⟨rfl, rfl⟩

theorem witness_PhaAndPhpPushOneByte :
    (witnessState []).Inv ∧
      (Instr.pha, (0x80 : Byte)) ∈
        [(Instr.pha, (witnessState []).a), (.php, (witnessState []).p ||| 0x30)] ∧
      (Instr.php, (0x30 : Byte)) ∈
        [(Instr.pha, (witnessState []).a), (.php, (witnessState []).p ||| 0x30)] :=
  ⟨rfl, by decide⟩

theorem witness_JsrPushesTheReturnAddress : (topState [0x20, 0x34, 0x12]).Inv := rfl

theorem witness_BrkEntersTheTrap : (topState [0x00]).Inv ∧ (witnessState [0x00]).Inv := ⟨rfl, rfl⟩

theorem witness_PlpAfterPhpIsAsymmetric : (topState [0x08, 0x28]).Inv := rfl

theorem witness_RtsReturnsBehindTheJsr :
    (topState []).Inv ∧ ∃ t, exec (.jsr 0x1234) (topState []) = .next t ∧
      ∃ u : State, u.mem = t.mem ∧ u.sp = t.sp := ⟨rfl, _, rfl, _, rfl, rfl⟩

theorem witness_RtiReturnsPastTheBrkPadding :
    (topState []).Inv ∧ ∃ t, exec .brk (topState []) = .next t ∧ ∃ u : State, u.mem = t.mem ∧ u.sp = t.sp :=
  ⟨rfl, _, rfl, _, rfl, rfl⟩

theorem witness_ComparesOrderUnsigned :
    ∀ c ∈ [(Instr.cmpImm 0xFF, DataOperand.immediate 0xFF, (0x80 : Byte)), (.cmpZp 0xFF, .zeroPage 0xFF, 0x80),
        (.cmpZpx 0xFF, .zeroPageX 0xFF, 0x80), (.cmpAbs 0xFFFF, .absolute 0xFFFF, 0x80),
        (.cmpAbx 0xFFFF, .absoluteX 0xFFFF, 0x80), (.cmpAby 0xFFFF, .absoluteY 0xFFFF, 0x80),
        (.cmpIzx 0xFF, .indexedIndirectX 0xFF, 0x80), (.cmpIzy 0xFF, .indirectIndexedY 0xFF, 0x80),
        (.cpxImm 0xFF, .immediate 0xFF, 0x01), (.cpxZp 0xFF, .zeroPage 0xFF, 0x01),
        (.cpxAbs 0xFFFF, .absolute 0xFFFF, 0x01), (.cpyImm 0xFF, .immediate 0xFF, 0x02),
        (.cpyZp 0xFF, .zeroPage 0xFF, 0x02), (.cpyAbs 0xFFFF, .absolute 0xFFFF, 0x02)],
      c.1.operand = .data c.2.1 ∧
        (c.1.mnemonic, c.2.2) ∈ [(Mnemonic.cmp, (witnessState []).a), (.cpx, (witnessState []).x),
          (.cpy, (witnessState []).y)] := by decide

theorem witness_FlagInstructionsWriteOneBit :
    ∀ c ∈ [(Instr.clc, Flag.c, false), (.sec, .c, true), (.cli, .i, false), (.sei, .i, true), (.cld, .d, false),
        (.sed, .d, true), (.clv, .v, false)],
      c ∈ [(Instr.clc, Flag.c, false), (.sec, .c, true), (.cli, .i, false), (.sei, .i, true),
        (.cld, .d, false), (.sed, .d, true), (.clv, .v, false)] := by decide

/-- PLP from a stack byte with B set and bit 5 clear, with live B 0 and live bit 5 1. -/
theorem witness_NoStepSetsBOrClearsBit5 :
    ∃ t, step (startState ⟨0x00, 0x00, 0x00, 0x8000, 0xFE, 0x20⟩ [(0x01FF, 0x10), (0x8000, 0x28)]) = .next t ∧
      getFlag (startState ⟨0x00, 0x00, 0x00, 0x8000, 0xFE, 0x20⟩ [(0x01FF, 0x10), (0x8000, 0x28)]).p .b = false ∧
      getFlag (startState ⟨0x00, 0x00, 0x00, 0x8000, 0xFE, 0x20⟩ [(0x01FF, 0x10), (0x8000, 0x28)]).p .u = true :=
  ⟨_, rfl, by decide⟩

theorem witness_OnlyListedInstructionsWriteMemory :
    (witnessState []).Inv ∧
      (∃ t, exec (.staAbs 0xFFFF) (witnessState []) = .next t ∧ t.readByte 0xFFFF ≠ (witnessState []).readByte 0xFFFF) ∧
      ∃ t, exec .pha (witnessState []) = .next t ∧ t.readByte 0x01FF ≠ (witnessState []).readByte 0x01FF :=
  ⟨rfl, ⟨_, rfl, by decide⟩, _, rfl, by decide⟩

theorem witness_OnlyListedInstructionsWriteRegisters :
    (∃ t, exec (.ldaImm 0x11) (witnessState []) = .next t ∧ t.a ≠ (witnessState []).a) ∧
      (∃ t, exec .lsrAcc (witnessState []) = .next t ∧ t.a ≠ (witnessState []).a) ∧
      (∃ t, exec .tax (witnessState []) = .next t ∧ t.x ≠ (witnessState []).x) ∧
      (∃ t, exec .dey (witnessState []) = .next t ∧ t.y ≠ (witnessState []).y) ∧
      ∃ t, exec .pla (witnessState []) = .next t ∧ t.sp ≠ (witnessState []).sp :=
  ⟨⟨_, rfl, by decide⟩, ⟨_, rfl, by decide⟩, ⟨_, rfl, by decide⟩, ⟨_, rfl, by decide⟩, _, rfl, by decide⟩

theorem witness_OnlyListedInstructionsWriteFlags :
    (∃ t, exec (.ldaImm 0x80) (witnessState []) = .next t ∧ getFlag t.p .n ≠ getFlag (witnessState []).p .n) ∧
      (∃ t, exec (.ldaImm 0x00) (witnessState []) = .next t ∧ getFlag t.p .z ≠ getFlag (witnessState []).p .z) ∧
      (∃ t, exec (.sbcImm 0x01) (witnessState []) = .next t ∧ getFlag t.p .v ≠ getFlag (witnessState []).p .v) ∧
      (∃ t, exec .plp (topState []) = .next t ∧ getFlag t.p .u ≠ getFlag (topState []).p .u) ∧
      (∃ t, exec .rti ((topState []).setP 0x10) = .next t ∧ getFlag t.p .b ≠ getFlag ((topState []).setP 0x10).p .b) ∧
      (∃ t, exec .sed (witnessState []) = .next t ∧ getFlag t.p .d ≠ getFlag (witnessState []).p .d) ∧
      (∃ t, exec .brk (witnessState []) = .next t ∧ getFlag t.p .i ≠ getFlag (witnessState []).p .i) ∧
      ∃ t, exec .aslAcc (witnessState []) = .next t ∧ getFlag t.p .c ≠ getFlag (witnessState []).p .c :=
  ⟨⟨_, rfl, by decide⟩, ⟨_, rfl, by decide⟩, ⟨_, rfl, by decide⟩, ⟨_, rfl, by decide⟩, ⟨_, rfl, by decide⟩,
    ⟨_, rfl, by decide⟩, ⟨_, rfl, by decide⟩, _, rfl, by decide⟩

theorem witness_UnreadFlagsDoNotInfluence :
    (∀ f ∈ [Flag.u, .b, .d, .i], f ∈ [Flag.u, .b, .d, .i]) ∧ Instr.adcImm 0x99 ≠ .php ∧ Instr.adcImm 0x99 ≠ .brk ∧
      ∃ t, exec (.adcImm 0x99) (witnessState []) = .next t :=
  ⟨by decide, by decide, by decide, _, rfl⟩

theorem witness_PcAdvancesOverTheEncodedBytes :
    ((Instr.nop.mnemonic ∉ controlFlow) ∧ ∃ t, exec .nop (topState []) = .next t) ∧
      ((Instr.ldaImm 0x42).mnemonic ∉ controlFlow ∧ ∃ t, exec (.ldaImm 0x42) (topState []) = .next t) ∧
      (Instr.staAbs 0xFFFF).mnemonic ∉ controlFlow ∧ ∃ t, exec (.staAbs 0xFFFF) (topState []) = .next t :=
  ⟨⟨by decide, _, rfl⟩, ⟨by decide, _, rfl⟩, by decide, _, rfl⟩

/-- With a page cross and without. -/
theorem witness_CyclesAreBasePlusPageCross :
    (∃ t, exec (.ldaAbx 0x12FF) (witnessState []) = .next t) ∧ ∃ t, exec (.ldaAbx 0x1200) (witnessState []) = .next t :=
  ⟨⟨_, rfl⟩, _, rfl⟩

/-- At S = 0x00 a push wraps, at S = 0xFF a pop. -/
theorem witness_WarningsAreTheStackWraps :
    ((∃ t, exec .pha (topState []) = .next t) ∧ (topState []).sp.toNat < pushes Instr.pha.mnemonic) ∧
      ((∃ t, exec .pla (witnessState []) = .next t) ∧
        255 < (witnessState []).sp.toNat + pops Instr.pla.mnemonic) ∧
      ∃ t, exec .nop (witnessState []) = .next t :=
  ⟨⟨⟨_, rfl⟩, by decide⟩, ⟨⟨_, rfl⟩, by decide⟩, _, rfl⟩

theorem witness_PcIsStuckExactlyAfterAnUnspecifiedBrk :
    (∃ t, step (witnessState [0x00]) = .next t) ∧ ∃ t, step (witnessState [0xEA]) = .next t :=
  ⟨⟨_, rfl⟩, _, rfl⟩

end Sys2Proof.Tests
end

section
/-! PROOF. What a loaded image leaves in memory and in the registers (00_scope.md R11). -/

namespace Sys2Proof.Machine

@[simp] theorem State.loadMemoryImage_cons (s : State) (c : Host.Cell) (image : List Host.Cell) :
    s.loadMemoryImage (c :: image) = (s.memWrite c.1 c.2).loadMemoryImage image := rfl

/-- Pairs are written in list order, so an image may be loaded in two parts. -/
theorem State.loadMemoryImage_append (s : State) (image image' : List Host.Cell) :
    s.loadMemoryImage (image ++ image') = (s.loadMemoryImage image).loadMemoryImage image' := by
  induction image generalizing s with
  | nil => rfl
  | cons c image ih => exact ih (s.memWrite c.1 c.2)

/-- Loading an image changes memory and nothing else. -/
theorem State.loadMemoryImage_frame (s : State) (image : List Host.Cell) :
    s.loadMemoryImage image = { s with mem := (s.loadMemoryImage image).mem } := by
  induction image generalizing s with
  | nil => rfl
  | cons c image ih => exact ih (s.memWrite c.1 c.2)

/-- A cell that no pair of the image names keeps its content. -/
theorem State.memRead_loadMemoryImage_of_unnamed {image : List Host.Cell} {addr : Nat}
    (hfree : ∀ c ∈ image, c.1 % Config.memSize ≠ addr % Config.memSize) {s : State} (h : s.Inv) :
    (s.loadMemoryImage image).memRead addr = s.memRead addr := by
  induction image generalizing s with
  | nil => rfl
  | cons c image ih =>
    obtain ⟨hc, himage⟩ := List.forall_mem_cons.1 hfree
    calc (s.loadMemoryImage (c :: image)).memRead addr
        = (s.memWrite c.1 c.2).memRead addr := ih himage (State.wf_memWrite h c.1 c.2)
      _ = s.memRead addr := by rw [State.memRead_memWrite h, if_neg hc.symm]

/-- A cell reads as the byte of a pair that names it when no later pair does. -/
theorem State.memRead_loadMemoryImage_of_last_named {before after : List Host.Cell} {c : Host.Cell}
    {addr : Nat} (hc : c.1 % Config.memSize = addr % Config.memSize)
    (hafter : ∀ c' ∈ after, c'.1 % Config.memSize ≠ addr % Config.memSize) {s : State} (h : s.Inv) :
    (s.loadMemoryImage (before ++ c :: after)).memRead addr = c.2 := by
  have hbefore : (s.loadMemoryImage before).Inv := State.wf_loadMemoryImage before h
  rw [State.loadMemoryImage_append, State.loadMemoryImage_cons,
    State.memRead_loadMemoryImage_of_unnamed hafter (State.wf_memWrite hbefore c.1 c.2),
    State.memRead_memWrite hbefore, if_pos hc.symm]

/-- Settles O12: later pairs that name other cells leave the last write to a cell in place. -/
theorem loadedImageIsReadBack : Obligations.LoadedImageIsReadBack := by
  intro s image addr h
  refine ⟨s.loadMemoryImage_frame image,
    fun hfree => State.memRead_loadMemoryImage_of_unnamed hfree h, ?_⟩
  rintro before c after rfl hc hafter
  exact State.memRead_loadMemoryImage_of_last_named hc hafter h

end Sys2Proof.Machine
end

section
/-! PROOF. The registers the host loads (00_scope.md R13) and the two transforms of P (10_state.md R29 to R31). -/

namespace Sys2Proof.Machine

open Sys2Proof.Claims

/-- Settles O13: `BitVec.ofNat` masks each value to the width of its register. -/
theorem loadRegistersMasksToWidth : Obligations.LoadRegistersMasksToWidth := by
  intro s r
  exact ⟨BitVec.toNat_ofNat r.a 8, BitVec.toNat_ofNat r.x 8, BitVec.toNat_ofNat r.y 8,
    BitVec.toNat_ofNat r.sp 8, BitVec.toNat_ofNat r.p 8, BitVec.toNat_ofNat r.pc 16, rfl, rfl⟩

theorem flagsKept_statusForPush (p : Byte) : FlagsKept [.b, .u] p (statusForPush p) := by
  intro f hf
  have hother : ¬(f = .b ∨ f = .u) := by simpa using hf
  simp [getFlag_statusForPush, hother]

theorem flagsKept_restoreFromPull (b : Byte) : FlagsKept [.b, .u] b (restoreFromPull b) := by
  intro f hf
  rw [getFlag_restoreFromPull]
  cases f with
  | b | u => simp at hf
  | n | v | d | i | z | c => rfl

/-- The law of R31, read off flag by flag: B is clear, bit 5 is set, the other six are those of `p`. -/
theorem restoreFromPull_statusForPush (p : Byte) :
    restoreFromPull (statusForPush p) = (p &&& 0xCF) ||| 0x20 := by
  apply status_ext
  intro f
  rw [getFlag_restoreFromPull]
  cases f with
  | b | u => simp [getFlag, Flag.pos]
  | n | v | d | i | z | c =>
    simp only [getFlag_statusForPush]
    simp [getFlag, Flag.pos]

/-- Settles O23: each transform writes B and bit 5 alone, and the law of R31 holds flag by flag. -/
theorem statusTransformsForceTheirBits : Obligations.StatusTransformsForceTheirBits := by
  intro p
  refine ⟨⟨?_, ?_, flagsKept_statusForPush p⟩, ⟨?_, ?_, flagsKept_restoreFromPull p⟩,
    restoreFromPull_statusForPush p⟩
  · simp [getFlag_statusForPush]
  · simp [getFlag_statusForPush]
  · exact getFlag_restoreFromPull p .b
  · exact getFlag_restoreFromPull p .u

end Sys2Proof.Machine
end

section
/-! PROOF. Reads and writes at natural-number addresses (20_memory.md R61, R62), and the pointer of the indirect jump,
whose successor stays in its page (20_memory.md R65; 30_encoding.md R102). -/

namespace Sys2Proof.Machine

/-- Settles O10: memory of 65536 cells reads back what was written, and both operations reduce the address. -/
theorem readsAndWritesReduceTheAddress : Obligations.ReadsAndWritesReduceTheAddress := by
  intro s addr addr' v h
  have hreduced : (addr + Config.memSize) % Config.memSize = addr % Config.memSize :=
    Nat.add_mod_right addr Config.memSize
  exact ⟨State.memRead_memWrite h addr v addr', rfl, congrArg (Memory.readCell s.mem) hreduced⟩

theorem hiByte_mask_or_mask (p q : Word) : hiByte ((p &&& 0xFF00) ||| (q &&& 0x00FF)) = hiByte p := by
  calc hiByte ((p &&& 0xFF00) ||| (q &&& 0x00FF))
      = (hiByte p &&& hiByte 0xFF00) ||| (hiByte q &&& hiByte 0x00FF) := by
        simp only [hiByte, BitVec.extractLsb'_or, BitVec.extractLsb'_and]
    _ = (hiByte p &&& BitVec.allOnes 8) ||| (hiByte q &&& 0#8) := rfl
    _ = hiByte p := by rw [BitVec.and_allOnes, BitVec.and_zero, BitVec.or_zero]

theorem loByte_mask_or_mask (p q : Word) : loByte ((p &&& 0xFF00) ||| (q &&& 0x00FF)) = loByte q := by
  calc loByte ((p &&& 0xFF00) ||| (q &&& 0x00FF))
      = (loByte p &&& loByte 0xFF00) ||| (loByte q &&& loByte 0x00FF) := by
        simp only [loByte, BitVec.extractLsb'_or, BitVec.extractLsb'_and]
    _ = (loByte p &&& 0#8) ||| (loByte q &&& BitVec.allOnes 8) := rfl
    _ = loByte q := by rw [BitVec.and_allOnes, BitVec.and_zero, BitVec.zero_or]

/-- The high byte is the pointer's, the low byte that of the pointer plus one. -/
theorem nextInPage_eq_joinBytes (p : Word) : nextInPage p = joinBytes (hiByte p) (loByte (p + 1)) := by
  rw [← joinBytes_hiByte_loByte (nextInPage p), nextInPage, hiByte_mask_or_mask, loByte_mask_or_mask]

/-- The successor of a pointer in its page, in the integers: the carry out of the low byte is dropped. -/
theorem nextInPage_toNat (p : Word) :
    (nextInPage p).toNat = 256 * (p.toNat / 256) + (p.toNat + 1) % 256 := by
  have hlow : (loByte (p + 1)).toNat = (p.toNat + 1) % 256 := by
    rw [loByte_toNat, BitVec.toNat_add]
    exact Nat.mod_mod_of_dvd (p.toNat + 1) (by decide)
  rw [nextInPage_eq_joinBytes, joinBytes_toNat, hiByte_toNat, hlow, Nat.mul_comm]

/-- The word read at two given addresses, in the integers. -/
theorem State.read16_toNat (s : State) (aLo aHi : Word) :
    (s.read16 aLo aHi).toNat = 256 * (s.memRead aHi.toNat).toNat + (s.memRead aLo.toNat).toNat := by
  rw [State.read16, joinBytes_toNat, Nat.mul_comm, State.readByte, State.readByte]

/-- Settles O21: the high byte is read at the successor of the pointer within its page. -/
theorem indirectTargetWrapsInThePage : Obligations.IndirectTargetWrapsInThePage := by
  intro s ptr
  refine ⟨nextInPage_toNat ptr, ?_, rfl⟩
  rw [indirectTarget, State.read16_toNat, nextInPage_toNat]

end Sys2Proof.Machine
end

section
/-! PROOF. The addressing-mode resolver in the integers (30_encoding.md R95 to R106). -/

namespace Sys2Proof.Machine

@[simp] theorem zext16_toNat (b : Byte) : (zext16 b).toNat = b.toNat :=
  BitVec.toNat_setWidth_of_le (by decide)

/-- Indexing in page zero wraps modulo 256 (30_encoding.md R97, R98, R103). -/
theorem zext16_add_toNat (z b : Byte) : (zext16 (z + b)).toNat = (z.toNat + b.toNat) % 256 := by
  rw [zext16_toNat, BitVec.toNat_add]

/-- Indexing a word by a register wraps modulo 65536 (30_encoding.md R100, R101, R104). -/
theorem add_zext16_toNat (w : Word) (b : Byte) : (w + zext16 b).toNat = (w.toNat + b.toNat) % 65536 := by
  rw [BitVec.toNat_add, zext16_toNat]

theorem hiByte_ne_hiByte_iff (p q : Word) : hiByte p ≠ hiByte q ↔ p.toNat / 256 ≠ q.toNat / 256 := by
  rw [← BitVec.toNat_ne_iff_ne, hiByte_toNat, hiByte_toNat]

/-- In a mode that indexes a base, a page cross is a changed high byte. -/
theorem pageCross_iff_of_indexBase {d : DataOperand} {s : State} {base : Word}
    (h : indexBase d s = some base) :
    pageCross d s = true ↔ (effectiveAddress d s).toNat / 256 ≠ base.toNat / 256 := by
  simp only [pageCross, h, bne_iff_ne]
  exact hiByte_ne_hiByte_iff (effectiveAddress d s) base

/-- The pointer in page zero, in the integers: both of its cells lie in page zero. -/
theorem State.readZeroPagePointer_toNat (s : State) (z : Byte) :
    (s.readZeroPagePointer z).toNat =
      256 * (s.memRead ((z.toNat + 1) % 256)).toNat + (s.memRead z.toNat).toNat := by
  have hnext : (zext16 (z + 1)).toNat = (z.toNat + 1) % 256 := zext16_add_toNat z 1
  rw [State.readZeroPagePointer, State.read16_toNat, zext16_toNat z, hnext]

/-- Settles O17: each address is read off the operand, and no mode here has a base to cross from. -/
theorem directModesResolve : Obligations.DirectModesResolve := by
  intro s v z lo hi
  refine ⟨⟨BitVec.toNat_add s.pc 1, Eq.symm, rfl, rfl⟩, ⟨zext16_toNat z, rfl, rfl⟩, ?_, rfl, rfl⟩
  rw [effectiveAddress, joinBytes_toNat, Nat.mul_comm]

/-- Settles O18: the sum is taken in eight bits before it is widened to an address. -/
theorem zeroPageIndexedModesWrapInPageZero : Obligations.ZeroPageIndexedModesWrapInPageZero := by
  intro s z
  exact ⟨⟨zext16_add_toNat z s.x, rfl, rfl⟩, ⟨zext16_add_toNat z s.y, rfl, rfl⟩⟩

/-- Settles O19: the sum wraps at 65536, and the page cross compares its high byte with the base's. -/
theorem absoluteIndexedModesReportPageCross : Obligations.AbsoluteIndexedModesReportPageCross := by
  intro s w
  have hx : (effectiveAddress (.absoluteX w) s).toNat = (w.toNat + s.x.toNat) % 65536 := add_zext16_toNat w s.x
  have hy : (effectiveAddress (.absoluteY w) s).toNat = (w.toNat + s.y.toNat) % 65536 := add_zext16_toNat w s.y
  refine ⟨⟨hx, rfl, ?_⟩, ⟨hy, rfl, ?_⟩⟩
  · rw [← hx]
    exact pageCross_iff_of_indexBase rfl
  · rw [← hy]
    exact pageCross_iff_of_indexBase rfl

/-- Settles O20: both modes read their pointer in page zero; only the second adds an index to it. -/
theorem zeroPagePointerModesResolve : Obligations.ZeroPagePointerModesResolve := by
  intro s z word base target
  have hbase : (s.readZeroPagePointer z).toNat = base := s.readZeroPagePointer_toNat z
  have hpointer : (effectiveAddress (.indexedIndirectX z) s).toNat = word ((z.toNat + s.x.toNat) % 256) := by
    rw [effectiveAddress, State.readZeroPagePointer_toNat, BitVec.toNat_add]
  have htarget : (effectiveAddress (.indirectIndexedY z) s).toNat = target := by
    rw [effectiveAddress, add_zext16_toNat, hbase]
  refine ⟨⟨hpointer, rfl, rfl⟩, ⟨htarget, rfl, ?_⟩⟩
  rw [← htarget, ← hbase]
  exact pageCross_iff_of_indexBase rfl

/-- The sign-extended byte is the byte's two's-complement value modulo 65536. -/
theorem sext16_toNat (d : Byte) : ((sext16 d).toNat : Int) = d.toInt % 65536 := by
  have hnonneg : 0 ≤ d.toInt % 65536 := Int.emod_nonneg d.toInt (by decide)
  exact (congrArg Nat.cast (BitVec.toNat_ofInt d.toInt)).trans (Int.toNat_of_nonneg hnonneg)

/-- The branch target in the integers: wrapping twice is wrapping the whole sum once (30_encoding.md R105). -/
theorem relativeTarget_toNat (d : Byte) (s : State) :
    ((relativeTarget d s).toNat : Int) = ((s.pc.toNat : Int) + 2 + d.toInt) % 65536 := by
  have hnext : (s.pc + 2).toNat = (s.pc.toNat + 2) % 65536 := BitVec.toNat_add s.pc 2
  have hsum : (relativeTarget d s).toNat = ((s.pc + 2).toNat + (sext16 d).toNat) % 65536 :=
    BitVec.toNat_add (s.pc + 2) (sext16 d)
  have hdisplacement := sext16_toNat d
  omega

/-- Settles O22: the two's-complement value of a byte is `BitVec.toInt`, which subtracts 256 from 128 on. -/
theorem relativeTargetIsSigned : Obligations.RelativeTargetIsSigned := by
  intro s d
  have hsigned : d.toInt = if d.toNat < 128 then (d.toNat : Int) else (d.toNat : Int) - 256 := by
    rw [BitVec.toInt_eq_toNat_cond]
    exact if_congr (by omega) rfl rfl
  exact ⟨hsigned ▸ relativeTarget_toNat d s, rfl⟩

end Sys2Proof.Machine
end

section
/-! PROOF. The flags the add/subtract core leaves in P, and ADC (40_add_subtract.md R140, R141). -/

namespace Sys2Proof.Machine

open Sys2Proof.Claims

theorem nzOf_setNZ (p v : Byte) : NZOf v (setNZ p v) := by
  constructor
  · simp [getFlag_setNZ]
  · simp [getFlag_setNZ, BitVec.msb_eq_decide]

/-- ADC and SBC write four flags, each from its part of the core's answer. -/
theorem getFlag_addFlags (p : Byte) (r : AddResult) (g : Flag) :
    getFlag (addFlags p r) g = match g with
      | .n => r.result.msb
      | .z => r.result == 0
      | .v => r.overflow
      | .c => r.carry
      | g => getFlag p g := by
  rw [addFlags, getFlag_setNZ]
  cases g with
  | n | z => rfl
  | v | c | u | b | d | i => simp [getFlag_setFlag]

theorem flagsKept_addFlags (p : Byte) (r : AddResult) : FlagsKept [.c, .v, .z, .n] p (addFlags p r) := by
  intro f hf
  rw [getFlag_addFlags]
  cases f with
  | c | v | z | n => simp at hf
  | u | b | d | i => rfl

theorem addCore_carry_iff (a b : Byte) (c : Bool) :
    (addCore a b c).carry = true ↔ 256 ≤ a.toNat + b.toNat + c.toNat :=
  decide_eq_true_iff

/-- Overflow, by signs: the operands agree and the result does not. -/
theorem addCore_overflow_iff (a b : Byte) (c : Bool) :
    (addCore a b c).overflow = true ↔ a.msb = b.msb ∧ (addCore a b c).result.msb ≠ a.msb := by
  simp only [addCore]
  cases a.msb <;> cases b.msb <;> simp

/-- Settles O25: in every mode ADC feeds A, the resolved byte and C to the core and stores its four answers. -/
theorem adcAddsWithCarry : Obligations.AdcAddsWithCarry := by
  intro i d s hm ho m sum
  let r := addCore s.a m (getFlag s.p .c)
  obtain ⟨base, hexec⟩ := exec_adc hm ho s
  have hcarry : getFlag (addFlags s.p r) .c = r.carry := getFlag_addFlags s.p r .c
  have hoverflow : getFlag (addFlags s.p r) .v = r.overflow := getFlag_addFlags s.p r .v
  refine ⟨_, hexec, rfl, ?_, ?_, nzOf_setNZ _ r.result, flagsKept_addFlags s.p r⟩
  · exact hcarry ▸ addCore_carry_iff s.a m (getFlag s.p .c)
  · exact hoverflow ▸ addCore_overflow_iff s.a m (getFlag s.p .c)

end Sys2Proof.Machine
end

section
/-! PROOF. The flags Z and N by themselves, and LDA (41_load_store_transfer.md R150). -/

namespace Sys2Proof.Machine

open Sys2Proof.Claims

theorem flagsKept_setNZ (p v : Byte) : FlagsKept [.z, .n] p (setNZ p v) := by
  intro f hf
  rw [getFlag_setNZ]
  cases f with
  | z | n => simp at hf
  | c | v | u | b | d | i => rfl

/-- Settles O27: in every mode LDA stores the resolved byte in A and sets Z and N of P from it. -/
theorem ldaLoadsTheOperand : Obligations.LdaLoadsTheOperand := by
  intro i d s hm ho
  obtain ⟨base, hexec⟩ := exec_lda hm ho s
  exact ⟨_, hexec, rfl, nzOf_setNZ s.p (operandValue d s), flagsKept_setNZ s.p (operandValue d s)⟩

end Sys2Proof.Machine
end

section
/-! PROOF. JMP in both modes (44_branch_jump.md R209). -/

namespace Sys2Proof.Machine

open Sys2Proof.Claims

/-- Everything an instruction that only writes PC does: branches and JMP. -/
theorem State.beginStep_setPc_eq (s : State) (base : Nat) (o : Operand) (w : Word) :
    (s.beginStep base o).setPc w =
      { s with pc := w, out := { cycles := stepCycles base o s, warnings := [] } } := rfl

theorem exec_jmpAbs (w : Word) (s : State) :
    exec (.jmpAbs w) s = .next ((s.beginStep 3 (.data (.absolute w))).setPc w) := rfl

theorem exec_jmpInd (w : Word) (s : State) :
    exec (.jmpInd w) s = .next ((s.beginStep 5 (.indirect w)).setPc (indirectTarget w s)) := rfl

/-- Settles O38: both modes write PC alone, and the Indirect target is the resolver's. -/
theorem jmpGoesToTheResolvedAddress : Obligations.JmpGoesToTheResolvedAddress := by
  intro w s
  obtain ⟨-, htarget, -⟩ := indirectTargetWrapsInThePage s w
  refine ⟨⟨_, exec_jmpAbs w s, ?_⟩, _, exec_jmpInd w s, ?_, htarget⟩
  · rw [State.beginStep_setPc_eq]
  · rw [State.beginStep_setPc_eq]

end Sys2Proof.Machine
end

section
/-! PROOF. The decoder and the encoder are inverse (30_encoding.md R90, R91, R107): an opcode byte fixes the mode,
and the mode fixes how many of the bytes that follow are the operand's. -/

namespace Sys2Proof

open Sys2Proof.Machine

/-- The operand of a mode whose first byte is `b1` and whose second, where it has two, is `b2`
(30_encoding.md R91, R92). -/
def operandFrom (b1 b2 : Byte) : Mode → Operand
  | .implied => .implied
  | .accumulator => .accumulator
  | .immediate => .data (.immediate b1)
  | .zeroPage => .data (.zeroPage b1)
  | .zeroPageX => .data (.zeroPageX b1)
  | .zeroPageY => .data (.zeroPageY b1)
  | .absolute => .data (.absolute (joinBytes b2 b1))
  | .absoluteX => .data (.absoluteX (joinBytes b2 b1))
  | .absoluteY => .data (.absoluteY (joinBytes b2 b1))
  | .indirect => .indirect (joinBytes b2 b1)
  | .indexedIndirectX => .data (.indexedIndirectX b1)
  | .indirectIndexedY => .data (.indirectIndexedY b1)
  | .relative => .relative b1

/-- An operand takes the bytes its mode takes after the opcode (30_encoding.md R90). -/
theorem Operand.bytes_length_add_one (o : Operand) : o.bytes.length + 1 = o.mode.length := by
  cases o with
  | data d => cases d <;> rfl
  | implied | accumulator | indirect _ | relative _ => rfl

theorem Operand.bytes_length_le (o : Operand) : o.bytes.length ≤ 2 := by
  have hlen := o.bytes_length_add_one
  have hmode : o.mode.length ≤ 3 := by cases o.mode <;> decide
  omega

theorem bytes_operandFrom_prefix (b1 b2 : Byte) (m : Mode) : (operandFrom b1 b2 m).bytes <+: [b1, b2] := by
  cases m <;> simp [operandFrom, Operand.bytes, DataOperand.bytes]

/-- A word joins back from its two bytes. -/
theorem eq_joinBytes_of_prefix {w : Word} {b1 b2 : Byte} (h : [loByte w, hiByte w] <+: [b1, b2]) :
    joinBytes b2 b1 = w := by
  obtain ⟨rfl, rfl⟩ : loByte w = b1 ∧ hiByte w = b2 := by simpa using h
  exact joinBytes_hiByte_loByte w

theorem operandFrom_of_prefix {o : Operand} {b1 b2 : Byte} (h : o.bytes <+: [b1, b2]) :
    operandFrom b1 b2 o.mode = o := by
  have hbyte : ∀ {z : Byte}, [z] <+: [b1, b2] → b1 = z := fun hz => (List.cons_prefix_cons.1 hz).1.symm
  cases o with
  | implied | accumulator => rfl
  | indirect w => exact congrArg Operand.indirect (eq_joinBytes_of_prefix h)
  | relative d => exact congrArg Operand.relative (hbyte h)
  | data d =>
    cases d with
    | absolute w | absoluteX w | absoluteY w =>
      exact congrArg Operand.data (congrArg _ (eq_joinBytes_of_prefix h))
    | immediate z | zeroPage z | zeroPageX z | zeroPageY z | indexedIndirectX z | indirectIndexedY z =>
      exact congrArg Operand.data (congrArg _ (hbyte h))

theorem exists_lt_eq_ofNat (b : Byte) : ∃ k < 256, b = BitVec.ofNat 8 k :=
  ⟨b.toNat, b.isLt, by simp⟩

/-- The opcode matrix read from an instruction: its own entry, with the operand the mode gives. -/
theorem decodeOpcode_opcode {i : Instr} {b1 b2 : Byte} (h : operandFrom b1 b2 i.mode = i.operand) :
    decodeOpcode i.opcode b1 b2 = some i := by
  cases i <;> cases h <;> dsimp only [Instr.opcode] <;> rfl

/-- The opcode matrix read from a byte: the entry has that opcode, and the operand its mode gives. -/
theorem opcode_and_operand_of_decodeOpcode {op b1 b2 : Byte} {i : Instr} (h : decodeOpcode op b1 b2 = some i) :
    i.opcode = op ∧ operandFrom b1 b2 i.mode = i.operand := by
  obtain ⟨k, hk, rfl⟩ := exists_lt_eq_ofNat op
  interval_cases k <;> cases h <;> exact ⟨rfl, rfl⟩

/-- Everything the opcode matrix does: it reads an instruction from its opcode byte and its operand bytes. -/
theorem decodeOpcode_eq_some_iff {op b1 b2 : Byte} {i : Instr} :
    decodeOpcode op b1 b2 = some i ↔ i.opcode = op ∧ i.operand.bytes <+: [b1, b2] := by
  constructor
  · intro h
    obtain ⟨hop, ho⟩ := opcode_and_operand_of_decodeOpcode h
    exact ⟨hop, ho ▸ bytes_operandFrom_prefix b1 b2 i.mode⟩
  · rintro ⟨rfl, h⟩
    exact decodeOpcode_opcode (operandFrom_of_prefix h)

/-- Everything the decoder does with an opcode byte and the bytes after it. -/
theorem decode_cons_eq_ok_iff {op : Byte} {tail rest : List Byte} {i : Instr} :
    decode (op :: tail) = .ok (i, rest) ↔
      decodeOpcode op (tail.getD 0 0) (tail.getD 1 0) = some i ∧ i.length ≤ tail.length + 1 ∧
        tail.drop (i.length - 1) = rest := by
  rw [decode]
  cases decodeOpcode op (tail.getD 0 0) (tail.getD 1 0) with
  | none => simp
  | some j =>
    by_cases hlen : tail.length + 1 < j.length
    · simp only [hlen, if_true, reduceCtorEq, Option.some.injEq, false_iff]
      rintro ⟨rfl, hle, -⟩
      omega
    · simp only [hlen, if_false, Except.ok.injEq, Prod.mk.injEq, Option.some.injEq]
      constructor
      · rintro ⟨rfl, hrest⟩
        exact ⟨rfl, by omega, hrest⟩
      · rintro ⟨rfl, -, hrest⟩
        exact ⟨rfl, hrest⟩

/-- The two bytes the decoder looks at hold the first ones of those that follow the opcode. -/
theorem prefix_firstTwo_iff {l m : List Byte} (h2 : l.length ≤ 2) (hm : l.length ≤ m.length) :
    l <+: [m.getD 0 0, m.getD 1 0] ↔ l <+: m := by
  match l, m with
  | [], _ => simp
  | [a], b :: m => simp
  | [a, a'], b :: b' :: m => simp

theorem encode_append (i : Instr) (rest : List Byte) :
    encode i ++ rest = i.opcode :: (i.operand.bytes ++ rest) := rfl

/-- Settles O1: the decoder finds the opcode's entry, whose operand bytes lead the bytes after it. -/
theorem decodeOfEncodeIsTheInstruction : Obligations.DecodeOfEncodeIsTheInstruction := by
  intro i rest
  have hlen : i.operand.bytes.length + 1 = i.length := i.operand.bytes_length_add_one
  have hle : i.operand.bytes.length ≤ (i.operand.bytes ++ rest).length := by simp
  rw [encode_append]
  refine decode_cons_eq_ok_iff.2 ⟨decodeOpcode_eq_some_iff.2 ⟨rfl, ?_⟩, by omega, ?_⟩
  · exact (prefix_firstTwo_iff i.operand.bytes_length_le hle).2 (List.prefix_append i.operand.bytes rest)
  · rw [show i.length - 1 = i.operand.bytes.length by omega, List.drop_left]

/-- Settles O2: the operand bytes lead the bytes after the opcode, and the rest is left over. -/
theorem encodeOfDecodeIsTheBytes : Obligations.EncodeOfDecodeIsTheBytes := by
  intro bytes i rest h
  cases bytes with
  | nil => cases h
  | cons op tail =>
    obtain ⟨hop, hle, rfl⟩ := decode_cons_eq_ok_iff.1 h
    obtain ⟨rfl, hbytes⟩ := decodeOpcode_eq_some_iff.1 hop
    have hlen : i.operand.bytes.length + 1 = i.length := i.operand.bytes_length_add_one
    have hprefix : i.operand.bytes <+: tail :=
      (prefix_firstTwo_iff i.operand.bytes_length_le (by omega)).1 hbytes
    rw [show i.length - 1 = i.operand.bytes.length by omega]
    exact congrArg (i.opcode :: ·) (List.prefix_iff_eq_append.1 hprefix)

/-- Whatever bytes follow, the matrix is empty exactly at the 105 listed values. -/
theorem decodeOpcode_isNone (op b1 b2 : Byte) :
    (decodeOpcode op b1 b2).isNone = decide (op ∈ Claims.illegalOpcodes) := by
  obtain ⟨k, hk, rfl⟩ := exists_lt_eq_ofNat op
  interval_cases k <;> rfl

/-- Settles O3: read off the opcode matrix entry by entry. -/
theorem exactlyTheListedBytesAreNoOpcode : Obligations.ExactlyTheListedBytesAreNoOpcode := by
  intro op b1 b2
  rw [← Option.isNone_iff_eq_none, decodeOpcode_isNone, decide_eq_true_iff]

/-- Settles O4: the words are decoded by evaluation. -/
theorem wordsWrittenOutFromTheSpecDecode : Obligations.WordsWrittenOutFromTheSpecDecode := by
  unfold Obligations.WordsWrittenOutFromTheSpecDecode
  decide

end Sys2Proof
end

section
/-! PROOF. One step of the core (30_encoding.md R111): it runs the instruction at PC, and it stops only where there is
none or where PC is stuck (60_exceptions.md R300, 45_stack_subroutine_interrupt.md R226). -/

namespace Sys2Proof.Machine

open Sys2Proof.Claims

theorem step_of_pcStuck {s : State} (h : s.pcStuck = true) : step s = .fault .pcStuck := if_pos h

theorem step_of_fetchInstr {s : State} {i : Instr} (hs : s.pcStuck = false) (hi : s.fetchInstr = some i) :
    step s = exec i s := by
  simp [step, hs, hi]

theorem step_of_no_instr {s : State} (hs : s.pcStuck = false) (hi : s.fetchInstr = none) :
    step s = .fault (.unimplementedOpcode (s.readByte s.pc) s.pc) := by
  simp [step, hs, hi]

theorem State.fetchInstr_eq_none_iff (s : State) : s.fetchInstr = none ↔ s.readByte s.pc ∈ illegalOpcodes :=
  exactlyTheListedBytesAreNoOpcode _ _ _

/-- No meaning, whatever its shape, is a fault or a refusal. -/
theorem Meaning.completes {i : Instr} {s : State} {o : Host.Outcome State Fault Refusal} (h : Meaning i s o) :
    ∃ t, o = .next t := by
  cases h <;> exact ⟨_, rfl⟩

/-- The three ways a step can end. -/
theorem step_outcome (s : State) :
    (s.pcStuck = true ∧ step s = .fault .pcStuck) ∨
      (s.pcStuck = false ∧ s.readByte s.pc ∈ illegalOpcodes ∧
        step s = .fault (.unimplementedOpcode (s.readByte s.pc) s.pc)) ∨
      ∃ t, step s = .next t := by
  cases hs : s.pcStuck with
  | true => exact .inl ⟨rfl, step_of_pcStuck hs⟩
  | false =>
    refine .inr ?_
    cases hi : s.fetchInstr with
    | none => exact .inl ⟨rfl, s.fetchInstr_eq_none_iff.1 hi, step_of_no_instr hs hi⟩
    | some i => exact .inr (step_of_fetchInstr hs hi ▸ (exec_meaning i s).completes)

/-- Settles O5: the decoder and the fetch read the same three bytes. -/
theorem stepRunsTheDecodedInstruction : Obligations.StepRunsTheDecodedInstruction := by
  intro s i rest hs h
  obtain ⟨hi, -, -⟩ := decode_cons_eq_ok_iff.1 h
  exact step_of_fetchInstr hs hi

/-- Settles O6: the opcode lies at PC, and the operand bytes lead the two bytes after it. -/
theorem stepRunsTheBytesInMemory : Obligations.StepRunsTheBytesInMemory := by
  intro s i hs h
  have hop : i.opcode = s.readByte s.pc := by simpa using (h 0 i.opcode rfl).symm
  have hbytes : i.operand.bytes <+: [s.readByte (s.pc + 1), s.readByte (s.pc + 2)] := by
    have hle := i.operand.bytes_length_le
    refine List.prefix_iff_getElem?.2 fun k hk => ?_
    have hread := h (k + 1) i.operand.bytes[k] (by simp [encode])
    obtain rfl | rfl : k = 0 ∨ k = 1 := by omega
    · exact congrArg some hread
    · exact congrArg some hread
  exact step_of_fetchInstr hs (decodeOpcode_eq_some_iff.2 ⟨hop, hbytes⟩)

/-- Settles O7: at a listed byte nothing is fetched. -/
theorem unlistedOpcodeRaisesTheError : Obligations.UnlistedOpcodeRaisesTheError := by
  intro s hs h
  exact step_of_no_instr hs (s.fetchInstr_eq_none_iff.2 h)

/-- Settles O8: every meaning has the shape of a next state. -/
theorem everyInstructionCompletes : Obligations.EveryInstructionCompletes := by
  intro i s
  obtain ⟨t, ht⟩ := (exec_meaning i s).completes
  exact ⟨t, ht, trivial⟩

/-- Settles O9: a step has three ways to end, and each clause leaves one of them. -/
theorem aStepStopsOnlyAtLookupOrStuckPc : Obligations.AStepStopsOnlyAtLookupOrStuckPc := by
  intro s
  refine ⟨step_of_pcStuck, fun r hs hr => ?_, fun r hr => ?_⟩
  · obtain ⟨hstuck, -⟩ | ⟨-, hbyte, hstep⟩ | ⟨t, hstep⟩ := step_outcome s
    · cases hstuck.symm.trans hs
    · cases hstep.symm.trans hr
      exact ⟨rfl, hbyte⟩
    · cases hstep.symm.trans hr
  · obtain ⟨-, hstep⟩ | ⟨-, -, hstep⟩ | ⟨t, hstep⟩ := step_outcome s <;> cases hstep.symm.trans hr

end Sys2Proof.Machine
end

section
/-! PROOF. What the stack unit, trap entry and trap return leave in each field (20_memory.md R67, R68;
45_stack_subroutine_interrupt.md R226, R227): the rules the proofs over all instructions use. -/

namespace Sys2Proof.Machine

@[simp] theorem State.pushWord_a (s : State) (w : Word) : (s.pushWord w).a = s.a := rfl
@[simp] theorem State.pushWord_x (s : State) (w : Word) : (s.pushWord w).x = s.x := rfl
@[simp] theorem State.pushWord_y (s : State) (w : Word) : (s.pushWord w).y = s.y := rfl
@[simp] theorem State.pushWord_sp (s : State) (w : Word) : (s.pushWord w).sp = s.sp - 1 - 1 := rfl
@[simp] theorem State.pushWord_p (s : State) (w : Word) : (s.pushWord w).p = s.p := rfl
@[simp] theorem State.pushWord_pc (s : State) (w : Word) : (s.pushWord w).pc = s.pc := rfl
@[simp] theorem State.pushWord_pcStuck (s : State) (w : Word) : (s.pushWord w).pcStuck = s.pcStuck := rfl
@[simp] theorem State.pushWord_freeCount (s : State) (w : Word) : (s.pushWord w).freeCount = s.freeCount := rfl

@[simp] theorem State.wf_pushWord {s : State} (h : s.mem.wf = true) (w : Word) : (s.pushWord w).mem.wf = true :=
  State.wf_push (State.wf_push h _) _

@[simp] theorem State.takeBreak_a (s : State) (policy : BrkPcPolicy) : (s.takeBreak policy).a = s.a :=
  (s.takeBreak_fields policy).1

@[simp] theorem State.takeBreak_x (s : State) (policy : BrkPcPolicy) : (s.takeBreak policy).x = s.x :=
  (s.takeBreak_fields policy).2.1

@[simp] theorem State.takeBreak_y (s : State) (policy : BrkPcPolicy) : (s.takeBreak policy).y = s.y :=
  (s.takeBreak_fields policy).2.2.1

@[simp] theorem State.takeBreak_sp (s : State) (policy : BrkPcPolicy) :
    (s.takeBreak policy).sp = s.sp - 1 - 1 - 1 :=
  (s.takeBreak_fields policy).2.2.2.1

@[simp] theorem State.takeBreak_p (s : State) (policy : BrkPcPolicy) :
    (s.takeBreak policy).p = setFlag s.p .i true :=
  (s.takeBreak_fields policy).2.2.2.2.1

@[simp] theorem State.takeBreak_pcStuck (s : State) (policy : BrkPcPolicy) :
    (s.takeBreak policy).pcStuck = if policy = .unspecified then true else s.pcStuck := by
  simp [State.takeBreak, State.leavePcAfterBreak]

/-- Trap entry leaves the memory and the warnings of three pushes. -/
theorem State.takeBreak_mem_out (s : State) (policy : BrkPcPolicy) :
    let pushed := (s.pushWord (s.pc + 2)).push (statusForPush s.p)
    (s.takeBreak policy).mem = pushed.mem ∧ (s.takeBreak policy).out = pushed.out := ⟨rfl, rfl⟩

@[simp] theorem State.returnFromInterrupt_a (s : State) : s.returnFromInterrupt.a = s.a := by
  simp [State.returnFromInterrupt]
@[simp] theorem State.returnFromInterrupt_x (s : State) : s.returnFromInterrupt.x = s.x := by
  simp [State.returnFromInterrupt]
@[simp] theorem State.returnFromInterrupt_y (s : State) : s.returnFromInterrupt.y = s.y := by
  simp [State.returnFromInterrupt]
@[simp] theorem State.returnFromInterrupt_sp (s : State) : s.returnFromInterrupt.sp = s.sp + 1 + 1 + 1 := by
  simp [State.returnFromInterrupt]
@[simp] theorem State.returnFromInterrupt_p (s : State) :
    s.returnFromInterrupt.p = restoreFromPull (s.memRead (stackSlot (s.sp + 1))) := by
  simp [State.returnFromInterrupt, State.pop]
@[simp] theorem State.returnFromInterrupt_mem (s : State) : s.returnFromInterrupt.mem = s.mem := by
  simp [State.returnFromInterrupt]
@[simp] theorem State.returnFromInterrupt_pcStuck (s : State) : s.returnFromInterrupt.pcStuck = s.pcStuck := by
  simp [State.returnFromInterrupt]
@[simp] theorem State.returnFromInterrupt_freeCount (s : State) :
    s.returnFromInterrupt.freeCount = s.freeCount := by
  simp [State.returnFromInterrupt]

end Sys2Proof.Machine
end

section
/-! PROOF. What every instruction keeps: the canonical form of memory, and where PC and the stuck PC go. Each proof
splits over the shapes of a meaning. -/

namespace Sys2Proof.Machine

open Sys2Proof.Claims

theorem meaning_of_exec {i : Instr} {s t : State} (h : exec i s = .next t) : Meaning i s (.next t) :=
  h ▸ exec_meaning i s

theorem Meaning.inv {i : Instr} {s t : State} (h : Meaning i s (.next t)) (hs : s.Inv) : t.Inv := by
  have hmem : s.mem.wf = true := hs
  cases h with
  | store | addToMemory | shiftMemory | pha | php | pla | plp | jsr | rts | brk | rti => simp [State.Inv, hmem]
  | _ => exact hs

/-- Settles O15: a step that goes on is an instruction, and each instruction keeps the form. -/
theorem everyStepKeepsMemoryCanonical : Obligations.EveryStepKeepsMemoryCanonical := by
  intro s t hs h
  obtain ⟨-, i, -, hexec⟩ := step_next h
  exact (meaning_of_exec hexec).inv hs

/-- Settles O16: a launch loads its image into the memory of the state after reset. -/
theorem launchedMemoryIsCanonical : Obligations.LaunchedMemoryIsCanonical :=
  ⟨rfl, fun image _ => State.wf_loadMemoryImage image rfl⟩

theorem length_encode (i : Instr) : (encode i).length = i.operand.mode.length := i.operand.bytes_length_add_one

/-- Outside the control-flow set each shape ends in the advance over its operand (30_encoding.md R112). -/
theorem Meaning.pc_of_not_controlFlow {i : Instr} {s t : State} (h : Meaning i s (.next t))
    (hi : i.mnemonic ∉ controlFlow) : t.pc = s.pc + BitVec.ofNat 16 i.operand.mode.length := by
  cases h with
  | adc _ ho | sbc _ ho | lda _ ho | ldx _ ho | ldy _ ho | bit _ ho | store _ ho | logic _ ho | addToMemory _ ho
  | shiftA _ ho | shiftMemory _ ho | compare _ ho | setFlag _ ho => rw [ho]; rfl
  | tax h | tay h | txa h | tya h | tsx h | txs h | inx h | iny h | dex h | dey h | pha h | php h | pla h | plp h
  | nop h => subst h; rfl
  | branch h _ =>
    have hbranch : i.mnemonic ∈ [.bcc, .bcs, .beq, .bne, .bmi, .bpl, .bvc, .bvs] :=
      List.mem_map_of_mem (f := Prod.fst) h
    exact absurd (List.mem_append_left [Mnemonic.jmp, .jsr, .rts, .rti, .brk] hbranch) hi
  | jmpAbs _ h | jmpInd _ h | jsr _ h | rts h | brk h | rti h => subst h; simp [Instr.mnemonic, controlFlow] at hi

/-- Settles O55: an instruction has as many bytes as its mode, and PC advances over them. -/
theorem pcAdvancesOverTheEncodedBytes : Obligations.PcAdvancesOverTheEncodedBytes := by
  intro i s t hi h
  rw [length_encode]
  exact (meaning_of_exec h).pc_of_not_controlFlow hi

/-- Only BRK can leave PC stuck. -/
theorem Meaning.pcStuck_of_ne_brk {i : Instr} {s t : State} (h : Meaning i s (.next t)) (hi : i ≠ .brk) :
    t.pcStuck = s.pcStuck := by
  cases h with
  | brk h => exact absurd h hi
  | pla | plp | jsr | rts | rti => simp
  | _ => rfl

theorem exec_brk (s : State) : exec .brk s = .next ((s.beginStep 7 .implied).takeBreak Config.brkPcPolicy) := rfl

/-- Settles O58: PC is not stuck before a step that goes on, and only BRK under that policy sticks it. -/
theorem pcIsStuckExactlyAfterAnUnspecifiedBrk : Obligations.PcIsStuckExactlyAfterAnUnspecifiedBrk := by
  intro s t h
  obtain ⟨hs, i, hi, hexec⟩ := step_next h
  by_cases hbrk : i = .brk
  · subst hbrk
    cases (exec_brk s).symm.trans hexec
    simp [hi, hs]
  · simp [(meaning_of_exec hexec).pcStuck_of_ne_brk hbrk, hi, hs, hbrk]

end Sys2Proof.Machine
end

section
/-! PROOF. The outputs of a step (30_encoding.md R113, 20_memory.md R69): its cycle count and its stack warnings. -/

namespace Sys2Proof.Machine

open Sys2Proof.Claims

/-- Each row passes the base count its mnemonic and mode have in 70_reset_and_hazards.md R334. -/
theorem exec_cycles {i : Instr} {s t : State} (h : exec i s = .next t) :
    t.out.cycles = stepCycles (baseCycles i.mnemonic i.mode) i.operand s := by
  cases i <;> cases h <;> rfl

/-- Settles O56: the page cross the resolver reports is added to the base count of the row. -/
theorem cyclesAreBasePlusPageCross : Obligations.CyclesAreBasePlusPageCross := by
  intro i s t h
  rw [exec_cycles h, stepCycles]
  cases (resolve i.operand s).cross <;> rfl

@[simp] theorem State.push_out (s : State) (v : Byte) :
    (s.push v).out = { cycles := s.out.cycles
                       warnings := s.out.warnings ++ (if s.sp == 0x00 then [.stackOverflow] else []) } := by
  rw [State.push_eq]

@[simp] theorem State.pop_snd_out (s : State) :
    s.pop.2.out = { cycles := s.out.cycles
                    warnings := s.out.warnings ++ (if s.sp == 0xFF then [.stackUnderflow] else []) } := by
  rw [State.pop_eq]

/-- The warnings of a step that pushes `n` bytes from S = `sp`, or pops `m` (20_memory.md R69). -/
def wrapWarnings (sp : Byte) (n m : Nat) : List StackWarning :=
  if sp.toNat < n then [.stackOverflow] else if 255 < sp.toNat + m then [.stackUnderflow] else []

@[simp] theorem wrapWarnings_none (sp : Byte) : wrapWarnings sp 0 0 = [] := by
  have := sp.isLt
  simp [wrapWarnings, show ¬ 255 < sp.toNat by omega]

/-- A push warns where it finds S = 0x00, and after that the pushes of one instruction do not wrap again. -/
theorem wrapWarnings_push_succ (sp : Byte) {n : Nat} (hn : n < 256) :
    wrapWarnings sp (n + 1) 0 = (if sp == 0 then [.stackOverflow] else []) ++ wrapWarnings (sp - 1) n 0 := by
  by_cases h : sp = 0
  · subst h
    simp [wrapWarnings, show ¬ 255 < n by omega]
  · have hlt := sp.isLt
    have hpos : sp.toNat ≠ 0 := fun h0 => h (BitVec.eq_of_toNat_eq h0)
    have hnext : (sp - 1).toNat = sp.toNat - 1 := by bv_omega
    rw [if_neg (by simpa using h), List.nil_append, wrapWarnings, wrapWarnings, hnext]
    exact if_congr (by omega) rfl (if_congr (by omega) rfl rfl)

/-- A pop warns where it finds S = 0xFF, and after that the pops of one instruction do not wrap again. -/
theorem wrapWarnings_pop_succ (sp : Byte) {m : Nat} (hm : m < 256) :
    wrapWarnings sp 0 (m + 1) = (if sp == 0xFF then [.stackUnderflow] else []) ++ wrapWarnings (sp + 1) 0 m := by
  by_cases h : sp = 0xFF
  · subst h
    simp [wrapWarnings, show ¬ 255 < m by omega]
  · have hlt := sp.isLt
    have hlast : sp.toNat ≠ 255 := fun h255 => h (BitVec.eq_of_toNat_eq h255)
    have hnext : (sp + 1).toNat = sp.toNat + 1 := by bv_omega
    rw [if_neg (by simpa using h), List.nil_append, wrapWarnings, wrapWarnings, hnext]
    exact if_congr (by omega) rfl (if_congr (by omega) rfl rfl)

/-- Without a push or a pop a step warns of nothing. -/
theorem Meaning.warnings_of_no_stack {i : Instr} {s t : State} (h : Meaning i s (.next t))
    (hpush : pushes i.mnemonic = 0) (hpop : pops i.mnemonic = 0) : t.out.warnings = [] := by
  cases h with
  | pha h | php h | jsr _ h | brk h => subst h; cases hpush
  | pla h | plp h | rts h | rti h => subst h; cases hpop
  | _ => rfl

theorem exec_warnings {i : Instr} {s t : State} (h : exec i s = .next t) :
    t.out.warnings = wrapWarnings s.sp (pushes i.mnemonic) (pops i.mnemonic) := by
  cases i with
  | pha | php | jsr _ | brk =>
    cases h
    simp [Instr.mnemonic, pushes, pops, wrapWarnings_push_succ, State.takeBreak_mem_out, State.pushWord]
  | pla | plp | rts | rti =>
    cases h
    simp [Instr.mnemonic, pushes, pops, wrapWarnings_pop_succ, State.popWord, State.returnFromInterrupt]
  | _ => exact ((meaning_of_exec h).warnings_of_no_stack rfl rfl).trans (wrapWarnings_none s.sp).symm

/-- Settles O57: each push and pop checks S, and three in a row wrap at most once. -/
theorem warningsAreTheStackWraps : Obligations.WarningsAreTheStackWraps := fun _ _ _ h => exec_warnings h

end Sys2Proof.Machine
end

section
/-! PROOF. What each flag computation writes into P (10_state.md R26, R36), and from it which registers and flags
each instruction can change (10_state.md R21 to R26), and that B and bit 5 change only by a pull (R32). -/

namespace Sys2Proof.Machine

open Sys2Proof.Claims

theorem flagsKept_setFlag (p : Byte) (f : Flag) (bit : Bool) : FlagsKept [f] p (setFlag p f bit) := fun _ hg =>
  getFlag_setFlag_ne p (List.ne_of_not_mem_cons hg) bit

/-- A shift writes three flags; a compare writes the same three. -/
theorem getFlag_shiftFlags (p : Byte) (r : ShiftResult) (g : Flag) :
    getFlag (shiftFlags p r) g = match g with
      | .n => r.result.msb
      | .z => r.result == 0
      | .c => r.carry
      | g => getFlag p g := by
  rw [shiftFlags, getFlag_setNZ]
  cases g with
  | n | z => rfl
  | v | c | u | b | d | i => simp [getFlag_setFlag]

theorem flagsKept_shiftFlags (p : Byte) (r : ShiftResult) : FlagsKept [.c, .z, .n] p (shiftFlags p r) := by
  intro f hf
  rw [getFlag_shiftFlags]
  cases f with
  | c | z | n => simp at hf
  | v | u | b | d | i => rfl

/-- The flags of a compare are those of a move with the subtraction's result and carry. -/
theorem compareFlags_eq_shiftFlags (p reg val : Byte) :
    compareFlags p reg val =
      shiftFlags p ⟨(addCore reg (val ^^^ 0xFF) true).result, (addCore reg (val ^^^ 0xFF) true).carry⟩ := rfl

theorem flagsKept_compareFlags (p reg val : Byte) : FlagsKept [.c, .z, .n] p (compareFlags p reg val) :=
  compareFlags_eq_shiftFlags p reg val ▸ flagsKept_shiftFlags p _

theorem getFlag_bitFlags (p a val : Byte) (g : Flag) :
    getFlag (bitFlags p a val) g = match g with
      | .n => val.getLsbD 7
      | .v => val.getLsbD 6
      | .z => (a &&& val) == 0
      | g => getFlag p g := by
  cases g <;> simp [bitFlags, getFlag_setFlag]

theorem flagsKept_bitFlags (p a val : Byte) : FlagsKept [.z, .n, .v] p (bitFlags p a val) := by
  intro f hf
  rw [getFlag_bitFlags]
  cases f with
  | z | n | v => simp at hf
  | c | u | b | d | i => rfl

/-- A shape that stands for several mnemonics has one of them. -/
theorem mnemonic_mem {α : Type} {m : Mnemonic} {v : α} {l : List (Mnemonic × α)} {ms : List Mnemonic}
    (h : (m, v) ∈ l) (hms : l.map Prod.fst ⊆ ms) : m ∈ ms := hms (List.mem_map_of_mem h)

theorem Meaning.writes_a {i : Instr} {s t : State} (h : Meaning i s (.next t)) (ha : t.a ≠ s.a) :
    i.mnemonic ∈ [Mnemonic.adc, .sbc, .and, .ora, .eor, .lda, .pla, .txa, .tya] ∨
      (i.mnemonic ∈ [Mnemonic.asl, .lsr, .rol, .ror] ∧ i.operand = .accumulator) := by
  cases h with
  | adc hm _ | sbc hm _ | lda hm _ => simp [hm]
  | logic hm _ => exact .inl (mnemonic_mem hm (by simp))
  | shiftA hm ho => exact .inr ⟨mnemonic_mem hm (by simp), ho⟩
  | txa hi | tya hi | pla hi => subst hi; simp [Instr.mnemonic]
  | plp | jsr | rts | brk | rti => simp at ha
  | _ => exact absurd rfl ha

theorem Meaning.writes_x {i : Instr} {s t : State} (h : Meaning i s (.next t)) (hx : t.x ≠ s.x) :
    i.mnemonic ∈ [Mnemonic.ldx, .tax, .tsx, .inx, .dex] := by
  cases h with
  | ldx hm _ => simp [hm]
  | tax hi | tsx hi | inx hi | dex hi => subst hi; simp [Instr.mnemonic]
  | pla | plp | jsr | rts | brk | rti => simp at hx
  | _ => exact absurd rfl hx

theorem Meaning.writes_y {i : Instr} {s t : State} (h : Meaning i s (.next t)) (hy : t.y ≠ s.y) :
    i.mnemonic ∈ [Mnemonic.ldy, .tay, .iny, .dey] := by
  cases h with
  | ldy hm _ => simp [hm]
  | tay hi | iny hi | dey hi => subst hi; simp [Instr.mnemonic]
  | pla | plp | jsr | rts | brk | rti => simp at hy
  | _ => exact absurd rfl hy

theorem Meaning.writes_sp {i : Instr} {s t : State} (h : Meaning i s (.next t)) (hsp : t.sp ≠ s.sp) :
    i.mnemonic ∈ [Mnemonic.pha, .php, .pla, .plp, .jsr, .rts, .brk, .rti, .txs] := by
  cases h with
  | pha hi | php hi | pla hi | plp hi | jsr _ hi | rts hi | brk hi | rti hi | txs hi =>
    subst hi; simp [Instr.mnemonic]
  | _ => exact absurd rfl hsp

/-- Settles O52: register by register, over the shapes of a meaning. -/
theorem onlyListedInstructionsWriteRegisters : Obligations.OnlyListedInstructionsWriteRegisters := by
  intro i s t h
  have hshape := meaning_of_exec h
  exact ⟨hshape.writes_a, hshape.writes_x, hshape.writes_y, hshape.writes_sp⟩

/-- A changed flag is one an update of P writes, so the mnemonics that make the update have to be listed for it. -/
theorem mem_flagWriters_of_flagsKept {m : Mnemonic} {ms : List Mnemonic} {written : List Flag} {p q : Byte}
    {f : Flag} (hf : getFlag q f ≠ getFlag p f) (hkept : FlagsKept written p q) (hm : m ∈ ms)
    (hlisted : ∀ g ∈ written, ms ⊆ flagWriters g) : m ∈ flagWriters f :=
  hlisted f (by_contra fun hn => hf (hkept f hn)) hm

theorem Meaning.writes_flag {i : Instr} {s t : State} {f : Flag} (h : Meaning i s (.next t))
    (hf : getFlag t.p f ≠ getFlag s.p f) : i.mnemonic ∈ flagWriters f := by
  cases h with
  | adc hm _ | sbc hm _ =>
    have hmem : i.mnemonic ∈ [Mnemonic.adc, .sbc] := by simp [hm]
    exact mem_flagWriters_of_flagsKept hf (flagsKept_addFlags s.p _) hmem (by decide)
  | bit hm _ =>
    have hmem : i.mnemonic ∈ [Mnemonic.bit] := by simp [hm]
    exact mem_flagWriters_of_flagsKept hf (flagsKept_bitFlags s.p s.a _) hmem (by decide)
  | lda hm _ | ldx hm _ | ldy hm _ =>
    have hmem : i.mnemonic ∈ [Mnemonic.lda, .ldx, .ldy] := by simp [hm]
    exact mem_flagWriters_of_flagsKept hf (flagsKept_setNZ s.p _) hmem (by decide)
  | logic hm _ =>
    have hmem : i.mnemonic ∈ [Mnemonic.and, .ora, .eor] := mnemonic_mem hm (by simp)
    exact mem_flagWriters_of_flagsKept hf (flagsKept_setNZ s.p _) hmem (by decide)
  | addToMemory hm _ =>
    have hmem : i.mnemonic ∈ [Mnemonic.inc, .dec] := mnemonic_mem hm (by simp)
    exact mem_flagWriters_of_flagsKept hf (flagsKept_setNZ s.p _) hmem (by decide)
  | tax hi | tay hi | txa hi | tya hi | tsx hi | inx hi | iny hi | dex hi | dey hi | pla hi =>
    have hmem : i.mnemonic ∈ [Mnemonic.tax, .tay, .txa, .tya, .tsx, .inx, .iny, .dex, .dey, .pla] := by
      subst hi; simp [Instr.mnemonic]
    exact mem_flagWriters_of_flagsKept hf (flagsKept_setNZ s.p _) hmem (by decide)
  | shiftA hm _ | shiftMemory hm _ =>
    have hmem : i.mnemonic ∈ [Mnemonic.asl, .lsr, .rol, .ror] := mnemonic_mem hm (by simp)
    exact mem_flagWriters_of_flagsKept hf (flagsKept_shiftFlags s.p _) hmem (by decide)
  | compare hm _ =>
    have hmem : i.mnemonic ∈ [Mnemonic.cmp, .cpx, .cpy] := mnemonic_mem hm (by simp)
    exact mem_flagWriters_of_flagsKept hf (flagsKept_compareFlags s.p _ _) hmem (by decide)
  | @setFlag g bit hm _ =>
    obtain rfl : f = g := by_contra fun hn => hf (getFlag_setFlag_ne s.p hn bit)
    refine (?_ : ∀ c ∈ _, c.1 ∈ flagWriters c.2.1) _ hm
    decide
  | brk hi =>
    have hmem : i.mnemonic ∈ [Mnemonic.brk] := by subst hi; simp [Instr.mnemonic]
    exact mem_flagWriters_of_flagsKept (by simpa using hf) (flagsKept_setFlag s.p .i true) hmem (by decide)
  | plp hi | rti hi => subst hi; cases f <;> decide
  | jsr | rts => simp at hf
  | _ => exact absurd rfl hf

/-- Settles O53: each update of P writes the flags it is listed for, and every shape makes one update at most. -/
theorem onlyListedInstructionsWriteFlags : Obligations.OnlyListedInstructionsWriteFlags :=
  fun _ _ _ _ h hf => (meaning_of_exec h).writes_flag hf

theorem eq_plp_or_rti {i : Instr} (h : i.mnemonic ∈ [Mnemonic.plp, .rti]) : i = .plp ∨ i = .rti := by
  obtain h | h : i.mnemonic = .plp ∨ i.mnemonic = .rti := by simpa using h
  · cases i <;> cases h
    exact .inl rfl
  · cases i <;> cases h
    exact .inr rfl

/-- A pull leaves in P a byte from the stack with B clear and bit 5 set (10_state.md R30). -/
theorem exec_pull {i : Instr} {s t : State} (hi : i = .plp ∨ i = .rti) (h : exec i s = .next t) :
    ∃ b, t.p = restoreFromPull b := by
  obtain rfl | rfl := hi
  · cases h
    exact ⟨_, rfl⟩
  · cases h
    exact ⟨_, State.returnFromInterrupt_p _⟩

/-- Settles O50: an instruction that writes B or bit 5 is a pull, and a pull clears B and sets bit 5. -/
theorem noStepSetsBOrClearsBit5 : Obligations.NoStepSetsBOrClearsBit5 := by
  intro s t h
  obtain ⟨-, i, -, hexec⟩ := step_next h
  have hpulled : ∀ f, flagWriters f = [.plp, .rti] → getFlag t.p f ≠ getFlag s.p f →
      ∃ b, t.p = restoreFromPull b := fun f hw hf =>
    exec_pull (eq_plp_or_rti (hw ▸ (meaning_of_exec hexec).writes_flag hf)) hexec
  constructor
  · intro hb
    by_cases hkept : getFlag t.p .b = getFlag s.p .b
    · exact hkept.trans hb
    · obtain ⟨b, hp⟩ := hpulled .b rfl hkept
      rw [hp, getFlag_restoreFromPull]
  · intro hu
    by_cases hkept : getFlag t.p .u = getFlag s.p .u
    · exact hkept.trans hu
    · obtain ⟨b, hp⟩ := hpulled .u rfl hkept
      rw [hp, getFlag_restoreFromPull]

end Sys2Proof.Machine
end

section
/-! PROOF. The stack in memory: the slots of page 1 that pushes write and pops read (20_memory.md R67, R68), and from it
which cells each instruction can change (20_memory.md section 5). -/

namespace Sys2Proof.Machine

open Sys2Proof.Claims

theorem slot_toNat (b : Byte) : (slot b).toNat = stackSlot b := by
  have hb := b.isLt
  have hbase : (0x0100 : Word).toNat = 256 := rfl
  rw [slot, stackSlot, Config.stackBase, BitVec.toNat_add, BitVec.toNat_setWidth, hbase]
  omega

theorem slot_in_page1 (b : Byte) : 0x0100 ≤ (slot b).toNat ∧ (slot b).toNat < 0x0200 := by
  have hb := b.isLt
  rw [slot_toNat, stackSlot, Config.stackBase]
  omega

@[simp] theorem slot_inj {b c : Byte} : slot b = slot c ↔ b = c := by
  rw [← BitVec.toNat_inj, slot_toNat, slot_toNat, stackSlot, stackSlot, Nat.add_left_cancel_iff, BitVec.toNat_inj]

/-- The stack unit reads its slot as any other cell. -/
@[simp] theorem State.memRead_stackSlot (s : State) (b : Byte) : s.memRead (stackSlot b) = s.readByte (slot b) := by
  rw [State.readByte, slot_toNat]

theorem State.readByte_push {s : State} (h : s.mem.wf = true) (v : Byte) (a : Word) :
    (s.push v).readByte a = if a = slot s.sp then v else s.readByte a := by
  have hslot : a.toNat % Config.memSize = stackSlot s.sp ↔ a = slot s.sp := by
    rw [Nat.mod_eq_of_lt (show a.toNat < Config.memSize from a.isLt), ← slot_toNat, BitVec.toNat_inj]
  exact (State.memRead_push h v a.toNat).trans (if_congr hslot rfl rfl)

theorem State.readByte_pushWord {s : State} (h : s.mem.wf = true) (w : Word) (a : Word) :
    (s.pushWord w).readByte a =
      if a = slot (s.sp - 1) then loByte w else if a = slot s.sp then hiByte w else s.readByte a := by
  rw [State.pushWord, State.readByte_push (State.wf_push h _), State.readByte_push h, State.push_sp]

/-- Trap entry writes three slots: P lowest, then the low and the high byte of PC + 2. -/
theorem State.readByte_takeBreak {s : State} (h : s.mem.wf = true) (policy : BrkPcPolicy) (a : Word) :
    (s.takeBreak policy).readByte a =
      if a = slot (s.sp - 2) then statusForPush s.p
      else if a = slot (s.sp - 1) then loByte (s.pc + 2)
      else if a = slot s.sp then hiByte (s.pc + 2) else s.readByte a := by
  have hsp : s.sp - 1 - 1 = s.sp - 2 := BitVec.sub_sub s.sp 1 1
  obtain ⟨hmem, -⟩ := s.takeBreak_mem_out policy
  rw [State.readByte_congr hmem, State.readByte_push (State.wf_pushWord h _), State.readByte_pushWord h,
    State.pushWord_sp, hsp]

/-- A write changes how one address reads. -/
theorem State.eq_of_readByte_writeByte_ne {s : State} (h : s.mem.wf = true) {a b : Word} {v : Byte}
    (hne : (s.writeByte a v).readByte b ≠ s.readByte b) : b = a :=
  by_contra fun hn => hne (by rw [State.readByte_writeByte h, if_neg hn])

theorem Meaning.writes_memory {i : Instr} {s t : State} {a : Word} (h : Meaning i s (.next t)) (hs : s.Inv)
    (ha : t.readByte a ≠ s.readByte a) :
    (i.mnemonic ∈ [Mnemonic.sta, .stx, .sty, .inc, .dec, .asl, .lsr, .rol, .ror] ∧
      ∃ d, i.operand = .data d ∧ a = effectiveAddress d s) ∨
    (i.mnemonic ∈ [Mnemonic.pha, .php, .jsr, .brk] ∧ 0x0100 ≤ a.toNat ∧ a.toNat < 0x0200) := by
  have hmem : s.mem.wf = true := hs
  cases h with
  | store hm ho | addToMemory hm ho | shiftMemory hm ho =>
    exact .inl ⟨mnemonic_mem hm (by simp), _, ho, State.eq_of_readByte_writeByte_ne hmem ha⟩
  | pha hi | php hi | jsr _ hi | brk hi =>
    refine .inr ⟨by subst hi; simp [Instr.mnemonic], ?_⟩
    by_contra hpage
    have hslot : ∀ b, a ≠ slot b := fun b hb => hpage (hb ▸ slot_in_page1 b)
    simp [hslot, hmem, State.readByte_push, State.readByte_pushWord, State.readByte_takeBreak] at ha
  | pla | plp | rts | rti => exact absurd (State.readByte_congr (by simp) a) ha
  | _ => exact absurd rfl ha

/-- Settles O51: each shape writes one cell at its effective address, or slots of page 1, or nothing. -/
theorem onlyListedInstructionsWriteMemory : Obligations.OnlyListedInstructionsWriteMemory :=
  fun _ _ _ _ hs h ha => (meaning_of_exec h).writes_memory hs ha

end Sys2Proof.Machine
end

section
/-! PROOF. The stack instructions one by one (20_memory.md section 4; 45_stack_subroutine_interrupt.md sections 1 to
3), and the pairs that undo each other. -/

namespace Sys2Proof.Machine

open Sys2Proof.Claims

/-- Settles O39: the pop reads the slot the push wrote. -/
theorem popUndoesPush : Obligations.PopUndoesPush := by
  intro s v h
  have hread : ∀ a, (s.push v).readByte a = if a = slot s.sp then v else s.readByte a := State.readByte_push h v
  have hback : s.sp - 1 + 1 = s.sp := BitVec.sub_add_cancel s.sp 1
  have htop : (s.push v).memRead (stackSlot s.sp) = v := by simp [hread]
  refine ⟨?_, htop, ?_, ?_, hback, rfl⟩
  · have hlt := s.sp.isLt
    rw [State.push_sp]
    bv_omega
  · intro a ha
    rw [hread, if_neg (by simpa using ha)]
  · rw [State.pop_eq, State.push_sp, hback, htop]

/-- Settles O40: PHA and PHP push one byte and advance over themselves. -/
theorem phaAndPhpPushOneByte : Obligations.PhaAndPhpPushOneByte := by
  intro i v s h hi
  have hread : ∀ a, (s.push v).readByte a = if a = slot s.sp then v else s.readByte a := State.readByte_push h v
  have hexec : exec i s = .next (((s.beginStep 3 .implied).push v).advanceOver .implied) := by
    obtain ⟨rfl, rfl⟩ | ⟨rfl, rfl⟩ : i = .pha ∧ v = s.a ∨ i = .php ∧ v = s.p ||| 0x30 := by simpa using hi
    · rfl
    · rfl
  refine ⟨_, hexec, rfl, ?_, fun a ha => ?_⟩
  · exact (hread _).trans (if_pos rfl)
  · exact (hread a).trans (if_neg (by simpa using ha))

theorem exec_pla (s : State) :
    exec .pla s = .next ((((s.beginStep 4 .implied).pop.2.setA (s.readByte (slot (s.sp + 1)))).setP
      (setNZ s.p (s.readByte (slot (s.sp + 1))))).advanceOver .implied) := by
  rw [← State.memRead_stackSlot]
  rfl

theorem exec_plp (s : State) :
    exec .plp s = .next (((s.beginStep 4 .implied).pop.2.setP
      (restoreFromPull (s.readByte (slot (s.sp + 1))))).advanceOver .implied) := by
  rw [← State.memRead_stackSlot]
  rfl

/-- Settles O41: PLA and PLP pop one byte and advance over themselves. -/
theorem plaAndPlpPullOneByte : Obligations.PlaAndPlpPullOneByte := fun s =>
  ⟨⟨_, exec_pla s, rfl, nzOf_setNZ s.p _, flagsKept_setNZ s.p _⟩, _, exec_plp s, rfl⟩

theorem exec_jsr (w : Word) (s : State) :
    exec (.jsr w) s = .next (((s.beginStep 6 (.data (.absolute w))).pushWord (s.pc + 2)).setPc w) := rfl

theorem State.pushWord_frame (s : State) (w : Word) :
    s.pushWord w = { s with mem := (s.pushWord w).mem, sp := s.sp - 2, out := (s.pushWord w).out } := by
  have hsp : s.sp - 1 - 1 = s.sp - 2 := BitVec.sub_sub s.sp 1 1
  rw [← hsp]
  rfl

/-- Settles O42: JSR pushes PC + 2 as a word and goes to its operand. -/
theorem jsrPushesTheReturnAddress : Obligations.JsrPushesTheReturnAddress := by
  intro w s h
  have hread : ∀ a, ((s.beginStep 6 (.data (.absolute w))).pushWord (s.pc + 2)).readByte a =
      if a = slot (s.sp - 1) then loByte (s.pc + 2) else if a = slot s.sp then hiByte (s.pc + 2)
      else s.readByte a := State.readByte_pushWord (s := s.beginStep 6 (.data (.absolute w))) h (s.pc + 2)
  have hne : s.sp ≠ s.sp - 1 := by bv_omega
  refine ⟨_, exec_jsr w s, ?_, ?_, ?_, fun a ha => ?_⟩
  · rw [State.pushWord_frame]
    rfl
  · rw [State.setPc_readByte, hread, if_neg (mt slot_inj.1 hne), if_pos rfl]
  · rw [State.setPc_readByte, hread, if_pos rfl]
  · obtain ⟨hhi, hlo⟩ : a ≠ slot s.sp ∧ a ≠ slot (s.sp - 1) := by simpa using ha
    rw [State.setPc_readByte, hread, if_neg hlo, if_neg hhi]

/-- Everything two pops in a row do. -/
theorem State.popWord_eq (s : State) :
    s.popWord = (joinBytes (s.readByte (slot (s.sp + 2))) (s.readByte (slot (s.sp + 1))),
      { s with sp := s.sp + 2, out := s.popWord.2.out }) := by
  have hsp : s.sp + 1 + 1 = s.sp + 2 := BitVec.add_assoc s.sp 1 1
  rw [← hsp, ← State.memRead_stackSlot, ← State.memRead_stackSlot]
  rfl

theorem State.eq_of_fields {s t : State} (ha : s.a = t.a) (hx : s.x = t.x) (hy : s.y = t.y) (hsp : s.sp = t.sp)
    (hp : s.p = t.p) (hpc : s.pc = t.pc) (hstuck : s.pcStuck = t.pcStuck) (hmem : s.mem = t.mem)
    (hout : s.out = t.out) (hfree : s.freeCount = t.freeCount) : s = t := by
  cases s
  cases t
  simp_all

/-- Everything trap return does: one pop for P, then two for PC. -/
theorem State.returnFromInterrupt_eq (s : State) :
    s.returnFromInterrupt = { s with
      sp := s.sp + 3, p := restoreFromPull (s.readByte (slot (s.sp + 1)))
      pc := joinBytes (s.readByte (slot (s.sp + 3))) (s.readByte (slot (s.sp + 2)))
      out := s.returnFromInterrupt.out } := by
  have hsp2 : s.sp + 1 + 1 = s.sp + 2 := BitVec.add_assoc s.sp 1 1
  have hsp3 : s.sp + 2 + 1 = s.sp + 3 := BitVec.add_assoc s.sp 2 1
  obtain ⟨ha, hx, hy, hsp, hp, hpc, hmem⟩ := s.returnFromInterrupt_fields
  rw [State.memRead_stackSlot, State.memRead_stackSlot, hsp2, hsp3] at hpc
  rw [State.memRead_stackSlot] at hp
  rw [hsp2, hsp3] at hsp
  exact State.eq_of_fields ha hx hy hsp hp hpc s.returnFromInterrupt_pcStuck hmem rfl
    s.returnFromInterrupt_freeCount

theorem exec_rts (s : State) :
    exec .rts s = .next ((s.beginStep 6 .implied).popWord.2.setPc ((s.beginStep 6 .implied).popWord.1 + 1)) := rfl

theorem exec_rti (s : State) : exec .rti s = .next (s.beginStep 6 .implied).returnFromInterrupt := rfl

/-- Settles O43: RTS pops a word and adds one; RTI pops P and then a word. -/
theorem rtsAndRtiPopTheReturnAddress : Obligations.RtsAndRtiPopTheReturnAddress := by
  intro s b
  refine ⟨⟨_, exec_rts s, ?_⟩, _, exec_rti s, ?_⟩
  · rw [State.popWord_eq]; rfl
  · rw [State.returnFromInterrupt_eq]; rfl

theorem setFlag_i_true (p : Byte) : setFlag p .i true = p ||| 0x04 := by
  apply status_ext
  intro f
  rw [getFlag_setFlag]
  cases f <;> simp [getFlag, Flag.pos]

/-- The pushes of trap entry leave the vector alone: PC is what the policy makes of the state before them. -/
theorem State.takeBreak_pc {s : State} (h : s.mem.wf = true) (policy : BrkPcPolicy) :
    (s.takeBreak policy).pc = s.pcAfterBreak policy := by
  have hvector : ∀ a b, 0x0200 ≤ a.toNat → a ≠ slot b := fun a b ha hab =>
    absurd (hab ▸ slot_in_page1 b).2 (by omega)
  simp only [State.takeBreak, State.leavePcAfterBreak]
  cases policy with
  | unspecified | hold | advance1 => simp [State.pcAfterBreak]
  | vector => simp [State.pcAfterBreak, State.read16, State.readByte_push, State.readByte_pushWord, h, hvector]

theorem State.takeBreak_pcByPolicy {s : State} (h : s.mem.wf = true) (policy : BrkPcPolicy) :
    PcByPolicy policy s (s.takeBreak policy) := by
  have hpc := State.takeBreak_pc h policy
  cases policy with
  | unspecified => exact s.takeBreak_pcStuck _
  | hold | advance1 | vector => exact ⟨hpc, s.takeBreak_pcStuck _⟩

theorem State.takeBreak_breakEntered {s : State} (h : s.mem.wf = true) (policy : BrkPcPolicy) :
    BreakEntered policy s (s.takeBreak policy) := by
  have hsp : s.sp - 1 - 1 - 1 = s.sp - 3 := by bv_omega
  have hread := State.readByte_takeBreak h policy
  obtain ⟨h01, h02, h12⟩ : s.sp ≠ s.sp - 1 ∧ s.sp ≠ s.sp - 2 ∧ s.sp - 1 ≠ s.sp - 2 := by bv_omega
  refine ⟨?_, ?_, ?_, ?_, fun a ha => ?_, State.takeBreak_pcByPolicy h policy⟩
  · exact State.eq_of_fields (s.takeBreak_a policy) (s.takeBreak_x policy) (s.takeBreak_y policy)
      ((s.takeBreak_sp policy).trans hsp) ((s.takeBreak_p policy).trans (setFlag_i_true s.p)) rfl rfl rfl rfl rfl
  · rw [hread, if_neg (mt slot_inj.1 h02), if_neg (mt slot_inj.1 h01), if_pos rfl]
  · rw [hread, if_neg (mt slot_inj.1 h12), if_pos rfl]
  · rw [hread, if_pos rfl, statusForPush]
  · obtain ⟨h0, h1, h2⟩ : a ≠ slot s.sp ∧ a ≠ slot (s.sp - 1) ∧ a ≠ slot (s.sp - 2) := by simpa using ha
    rw [hread, if_neg h2, if_neg h1, if_neg h0]

/-- Settles O44: the three pushes go to three slots, and the policy is applied to PC alone. -/
theorem brkEntersTheTrap : Obligations.BrkEntersTheTrap :=
  ⟨fun policy _ h => State.takeBreak_breakEntered h policy, fun s h =>
    ⟨_, exec_brk s, State.takeBreak_breakEntered (s := s.beginStep 7 .implied) h _⟩⟩

end Sys2Proof.Machine
end

section
/-! PROOF. The pairs of stack instructions that undo each other (45_stack_subroutine_interrupt.md; 95_test_vectors.md
section 1.9), each from what its two halves are proved to do. -/

namespace Sys2Proof.Machine

open Sys2Proof.Claims

/-- Settles O45: PLP pulls the byte PHP pushed, and the two transforms of P compose to the law of R31. -/
theorem plpAfterPhpIsAsymmetric : Obligations.PlpAfterPhpIsAsymmetric := by
  intro s h
  obtain ⟨t, hphp, ht, hpushed, -⟩ := phaAndPhpPushOneByte .php (s.p ||| 0x30) s h (by simp)
  obtain ⟨-, u, hplp, hu⟩ := plaAndPlpPullOneByte t
  have hsp : t.sp = s.sp - 1 := congrArg State.sp ht
  have hback : t.sp + 1 = s.sp := by rw [hsp, BitVec.sub_add_cancel]
  have hpc : t.pc + 1 = s.pc + 2 := by rw [congrArg State.pc ht]; exact BitVec.add_assoc s.pc 1 1
  rw [hback, hpushed, hpc] at hu
  have hp : u.p = (s.p &&& 0xCF) ||| 0x20 := (congrArg State.p hu).trans (restoreFromPull_statusForPush s.p)
  exact ⟨t, hphp, u, hplp, hp, (congrArg State.sp hu :), (congrArg State.pc hu :),
    (congrArg State.a hu :).trans (congrArg State.a ht :), (congrArg State.x hu :).trans (congrArg State.x ht :),
    (congrArg State.y hu :).trans (congrArg State.y ht :)⟩

/-- Settles O46: RTS joins the two bytes JSR pushed back to PC + 2, and adds one. -/
theorem rtsReturnsBehindTheJsr : Obligations.RtsReturnsBehindTheJsr := by
  intro w s h
  obtain ⟨t, hjsr, ht, hhi, hlo, -⟩ := jsrPushesTheReturnAddress w s h
  refine ⟨t, hjsr, (congrArg State.pc ht :), fun u hmem husp => ?_⟩
  obtain ⟨⟨r, hrts, hr⟩, -⟩ := rtsAndRtiPopTheReturnAddress u
  have hsp : u.sp = s.sp - 2 := husp.trans (congrArg State.sp ht)
  have hsp1 : u.sp + 1 = s.sp - 1 := by rw [hsp]; bv_omega
  have hsp2 : u.sp + 2 = s.sp := by rw [hsp, BitVec.sub_add_cancel]
  simp only [hsp1, hsp2, State.readByte_congr hmem, hhi, hlo, joinBytes_hiByte_loByte] at hr
  refine ⟨r, hrts, (congrArg State.pc hr :).trans ?_, (congrArg State.sp hr :)⟩
  exact BitVec.add_assoc s.pc 2 1

/-- Settles O47: RTI pulls the status BRK pushed and joins the two bytes below it back to PC + 2. -/
theorem rtiReturnsPastTheBrkPadding : Obligations.RtiReturnsPastTheBrkPadding := by
  intro s h
  obtain ⟨t, hbrk, ht, hhi, hlo, hp, -, -⟩ := brkEntersTheTrap.2 s h
  refine ⟨t, hbrk, fun u hmem husp => ?_⟩
  obtain ⟨-, r, hrti, hr⟩ := rtsAndRtiPopTheReturnAddress u
  have hsp : u.sp = s.sp - 3 := husp.trans (congrArg State.sp ht)
  have hsp1 : u.sp + 1 = s.sp - 2 := by rw [hsp]; bv_omega
  have hsp2 : u.sp + 2 = s.sp - 1 := by rw [hsp]; bv_omega
  have hsp3 : u.sp + 3 = s.sp := by rw [hsp, BitVec.sub_add_cancel]
  simp only [hsp1, hsp2, hsp3, State.readByte_congr hmem, hhi, hlo, hp, joinBytes_hiByte_loByte] at hr
  exact ⟨r, hrti, (congrArg State.pc hr :), (congrArg State.p hr :).trans (restoreFromPull_statusForPush s.p),
    (congrArg State.sp hr :)⟩

end Sys2Proof.Machine
end

section
/-! PROOF. Reset (70_reset_and_hazards.md R330) and the launch of any initial memory (20_memory.md R78). -/

namespace Sys2Proof.Machine

/-- Settles O11: reset writes the registers and the stuck PC, and no other field. -/
theorem resetLeavesTheDocumentedState : Obligations.ResetLeavesTheDocumentedState :=
  fun _ _ => ⟨rfl, rfl, rfl, rfl, rfl, rfl, rfl, rfl, rfl, rfl⟩

/-- The image that lists the first `n` cells of a memory content. -/
def imageOf (content : Word → Byte) (n : Nat) : List Host.Cell :=
  (List.range n).map fun k => (k, content (BitVec.ofNat 16 k))

theorem imageOf_succ (content : Word → Byte) (n : Nat) :
    imageOf content (n + 1) = imageOf content n ++ [(n, content (BitVec.ofNat 16 n))] := by
  simp [imageOf, List.range_succ]

/-- Every cell an image of a content lists reads as the content. -/
theorem State.memRead_loadMemoryImage_imageOf {s : State} (h : s.Inv) (content : Word → Byte) {n a : Nat}
    (hn : n ≤ Config.memSize) (ha : a < n) :
    (s.loadMemoryImage (imageOf content n)).memRead a = content (BitVec.ofNat 16 a) := by
  induction n with
  | zero => omega
  | succ n ih =>
    have hinv : (s.loadMemoryImage (imageOf content n)).Inv := State.wf_loadMemoryImage _ h
    rw [imageOf_succ, State.loadMemoryImage_append, State.loadMemoryImage_cons]
    refine (State.memRead_memWrite hinv n (content (BitVec.ofNat 16 n)) a).trans ?_
    rw [Nat.mod_eq_of_lt (show a < Config.memSize by omega), Nat.mod_eq_of_lt hn]
    by_cases hlast : a = n
    · rw [if_pos hlast, hlast]
    · rw [if_neg hlast, ih (by omega) (by omega)]

/-- Settles O14: the image that lists all 65536 cells of the content. -/
theorem anyInitialMemoryCanBeLaunched : Obligations.AnyInitialMemoryCanBeLaunched := by
  intro content entry
  refine ⟨imageOf content Config.memSize, fun a => ?_⟩
  have hread : (State.launch (imageOf content Config.memSize) entry).memRead a.toNat =
      content (BitVec.ofNat 16 a.toNat) :=
    State.memRead_loadMemoryImage_imageOf (s := State.reset.hostReset entry) rfl content le_rfl a.isLt
  rwa [BitVec.ofNat_toNat, BitVec.setWidth_eq] at hread

end Sys2Proof.Machine
end

section
/-! PROOF. The add/subtract core in the integers (40_add_subtract.md section 1), and the instructions that feed it a
complement: SBC (R142) and the compares (46_compare.md R240). -/

namespace Sys2Proof.Machine

open Sys2Proof.Claims

theorem byte_msb_iff (b : Byte) : b.msb = true ↔ 128 ≤ b.toNat := by
  rw [BitVec.msb_eq_decide, decide_eq_true_iff]

/-- A byte read as two's complement. -/
theorem byte_toInt (b : Byte) : b.toInt = if 128 ≤ b.toNat then (b.toNat : Int) - 256 else b.toNat := by
  rw [BitVec.toInt_eq_toNat_cond]
  split_ifs <;> omega

theorem addCore_result_toNat (a b : Byte) (c : Bool) :
    (addCore a b c).result.toNat = (a.toNat + b.toNat + c.toNat) % 256 := BitVec.toNat_ofNat _ _

/-- Settles O24: the operands agree in sign and the result does not exactly when the signed sum does not fit. -/
theorem addOverflowIsSignedRange : Obligations.AddOverflowIsSignedRange := by
  intro a b c
  refine ⟨addCore_sum a b c, ?_⟩
  have ha := a.isLt
  have hb := b.isLt
  have hc : c.toNat ≤ 1 := c.toNat_le
  have hsign : ∀ p q : Byte, p.msb = q.msb ↔ (128 ≤ p.toNat ↔ 128 ≤ q.toNat) := fun p q => by
    rw [Bool.eq_iff_iff, byte_msb_iff, byte_msb_iff]
  rw [addCore_overflow_iff, Ne, hsign, hsign, addCore_result_toNat, byte_toInt, byte_toInt]
  split_ifs <;> omega

/-- The complement of a byte, in the integers. -/
theorem complement_toNat (m : Byte) : (m ^^^ 0xFF).toNat = 255 - m.toNat := by
  have hnot : m ^^^ 0xFF = ~~~m := BitVec.xor_allOnes
  rw [hnot, BitVec.toNat_not]

theorem complement_toInt (m : Byte) : (m ^^^ 0xFF).toInt = -1 - m.toInt := by
  have hm := m.isLt
  rw [byte_toInt, byte_toInt, complement_toNat]
  split_ifs <;> omega

/-- Feeding the complement subtracts, with the missing carry as borrow. -/
theorem addCore_complement_result (a m : Byte) (c : Bool) :
    (addCore a (m ^^^ 0xFF) c).result = BitVec.ofInt 8 ((a.toNat : Int) - m.toNat - (1 - (c.toNat : Int))) := by
  apply BitVec.eq_of_toNat_eq
  have hm := m.isLt
  rw [addCore_result_toNat, complement_toNat, BitVec.toNat_ofInt]
  omega

theorem addCore_complement_carry_iff (a m : Byte) (c : Bool) :
    (addCore a (m ^^^ 0xFF) c).carry = true ↔ 0 ≤ (a.toNat : Int) - m.toNat - (1 - (c.toNat : Int)) := by
  have hm := m.isLt
  rw [addCore_carry_iff, complement_toNat]
  omega

theorem addCore_complement_overflow_iff (a m : Byte) (c : Bool) :
    (addCore a (m ^^^ 0xFF) c).overflow = true ↔
      a.toInt - m.toInt - (1 - (c.toNat : Int)) < -128 ∨ 127 < a.toInt - m.toInt - (1 - (c.toNat : Int)) := by
  rw [(addOverflowIsSignedRange a (m ^^^ 0xFF) c).2, complement_toInt]
  omega

/-- Settles O26: in every mode SBC feeds A, the complement of the resolved byte and C to the core. -/
theorem sbcSubtractsWithBorrow : Obligations.SbcSubtractsWithBorrow := by
  intro i d s hm ho m borrow diff signed
  let r := addCore s.a (m ^^^ 0xFF) (getFlag s.p .c)
  obtain ⟨base, hexec⟩ := exec_sbc hm ho s
  have hresult : r.result = BitVec.ofInt 8 diff := addCore_complement_result s.a m (getFlag s.p .c)
  have hcarry : getFlag (addFlags s.p r) .c = r.carry := getFlag_addFlags s.p r .c
  have hoverflow : getFlag (addFlags s.p r) .v = r.overflow := getFlag_addFlags s.p r .v
  refine ⟨_, hexec, ?_, ?_, ?_, nzOf_setNZ _ r.result, flagsKept_addFlags s.p r⟩
  · rw [← hresult]
    rfl
  · exact hcarry ▸ addCore_complement_carry_iff s.a m (getFlag s.p .c)
  · exact hoverflow ▸ addCore_complement_overflow_iff s.a m (getFlag s.p .c)

theorem exec_compare {i : Instr} {d : DataOperand} {reg : Byte} {s : State}
    (hm : (i.mnemonic, reg) ∈ [(Mnemonic.cmp, s.a), (.cpx, s.x), (.cpy, s.y)]) (ho : i.operand = .data d) :
    ∃ base, exec i s = runCompare reg d base s := by
  simp only [List.mem_cons, Prod.mk.injEq, List.not_mem_nil, or_false] at hm
  obtain ⟨hm, rfl⟩ | ⟨hm, rfl⟩ | ⟨hm, rfl⟩ := hm
  · exact exec_cmp hm ho s
  · exact exec_cpx hm ho s
  · exact exec_cpy hm ho s

/-- Settles O48: a compare subtracts without borrow and keeps the flags of the difference alone. -/
theorem comparesOrderUnsigned : Obligations.ComparesOrderUnsigned := by
  intro i d reg s ho hm m
  obtain ⟨base, hexec⟩ := exec_compare hm ho
  have hreg := reg.isLt
  have hval := m.isLt
  have hresult : (addCore reg (m ^^^ 0xFF) true).result.toNat = (reg.toNat + 256 - m.toNat) % 256 := by
    rw [addCore_result_toNat, complement_toNat, Bool.toNat_true]
    omega
  refine ⟨_, hexec, rfl, ?_, ?_, ?_, flagsKept_compareFlags s.p reg m⟩
  · show getFlag (compareFlags s.p reg m) .c = true ↔ _
    rw [compareFlags_eq_shiftFlags, getFlag_shiftFlags]
    exact (addCore_complement_carry_iff reg m true).trans (by simp)
  · show getFlag (compareFlags s.p reg m) .z = true ↔ _
    rw [compareFlags_eq_shiftFlags, getFlag_shiftFlags]
    simp only [beq_iff_eq]
    rw [← BitVec.toNat_inj, ← BitVec.toNat_inj, hresult]
    show _ = 0 ↔ _
    omega
  · show getFlag (compareFlags s.p reg m) .n = true ↔ _
    rw [compareFlags_eq_shiftFlags, getFlag_shiftFlags, byte_msb_iff, hresult]

end Sys2Proof.Machine
end

section
/-! PROOF. Loads, transfers, logic and counting in registers (41_load_store_transfer.md, 42_logic_incdec.md): one
register written, with Z and N of its new byte; the flag instructions (47_flag_nop.md); the branches
(44_branch_jump.md). -/

namespace Sys2Proof.Machine

open Sys2Proof.Claims

/-- Settles O28: in every mode the resolved byte goes to the index register and sets Z and N. -/
theorem ldxAndLdyLoadTheOperand : Obligations.LdxAndLdyLoadTheOperand := by
  intro i d s ho
  constructor
  · intro hm
    obtain ⟨base, hexec⟩ := exec_ldx hm ho s
    exact ⟨_, hexec, rfl, nzOf_setNZ s.p _, flagsKept_setNZ s.p _⟩
  · intro hm
    obtain ⟨base, hexec⟩ := exec_ldy hm ho s
    exact ⟨_, hexec, rfl, nzOf_setNZ s.p _, flagsKept_setNZ s.p _⟩

/-- Settles O30: five transfers set Z and N from the byte they copy, TXS copies alone. -/
theorem transfersCopyARegister : Obligations.TransfersCopyARegister := by
  intro s
  have hnz := nzOf_setNZ s.p
  have hkept := flagsKept_setNZ s.p
  exact ⟨⟨_, rfl, rfl, hnz s.a, hkept s.a⟩, ⟨_, rfl, rfl, hnz s.a, hkept s.a⟩, ⟨_, rfl, rfl, hnz s.x, hkept s.x⟩,
    ⟨_, rfl, rfl, hnz s.y, hkept s.y⟩, ⟨_, rfl, rfl, hnz s.sp, hkept s.sp⟩, _, rfl, rfl⟩

/-- Settles O31: the operations on bytes act on each bit by itself. -/
theorem logicActsBitwiseOnA : Obligations.LogicActsBitwiseOnA := by
  intro i d f s ho hf
  have hnz := nzOf_setNZ s.p
  have hkept := flagsKept_setNZ s.p
  obtain ⟨hm, rfl⟩ | ⟨hm, rfl⟩ | ⟨hm, rfl⟩ := hf
  · obtain ⟨base, hexec⟩ := exec_and hm ho s
    exact ⟨_, hexec, rfl, fun _ _ => BitVec.getLsbD_and, hnz _, hkept _⟩
  · obtain ⟨base, hexec⟩ := exec_ora hm ho s
    exact ⟨_, hexec, rfl, fun _ _ => BitVec.getLsbD_or, hnz _, hkept _⟩
  · obtain ⟨base, hexec⟩ := exec_eor hm ho s
    exact ⟨_, hexec, rfl, fun _ _ => BitVec.getLsbD_xor, hnz _, hkept _⟩

/-- Settles O32: BIT writes P alone, each flag from its part of the operand. -/
theorem bitTestsTheOperand : Obligations.BitTestsTheOperand := by
  intro i d s hm ho
  obtain ⟨base, hexec⟩ := exec_bit hm ho s
  have hflag := getFlag_bitFlags s.p s.a (operandValue d s)
  exact ⟨_, hexec, rfl, (hflag .z).symm ▸ beq_iff_eq, hflag .n, hflag .v, flagsKept_bitFlags s.p s.a _⟩

/-- Settles O34: 255 more is one less modulo 256. -/
theorem indexRegistersCountByOne : Obligations.IndexRegistersCountByOne := by
  intro s
  have hinc : ∀ b : Byte, b + 1 = BitVec.ofNat 8 (b.toNat + 1) := fun b => by bv_omega
  have hdec : ∀ b : Byte, b - 1 = BitVec.ofNat 8 (b.toNat + 255) := fun b => by bv_omega
  refine ⟨?_, ?_, ?_, ?_⟩ <;> rintro v rfl
  · rw [← hinc]
    exact ⟨_, rfl, rfl, nzOf_setNZ s.p _, flagsKept_setNZ s.p _⟩
  · rw [← hinc]
    exact ⟨_, rfl, rfl, nzOf_setNZ s.p _, flagsKept_setNZ s.p _⟩
  · rw [← hdec]
    exact ⟨_, rfl, rfl, nzOf_setNZ s.p _, flagsKept_setNZ s.p _⟩
  · rw [← hdec]
    exact ⟨_, rfl, rfl, nzOf_setNZ s.p _, flagsKept_setNZ s.p _⟩

/-- Each branch tests the flag, with the polarity, that its condition names. -/
theorem exec_of_branchCondition {i : Instr} {d : Byte} {cond : Bool} {s : State} (ho : i.operand = .relative d)
    (hc : branchCondition s.p i.mnemonic = some cond) : exec i s = runBranch cond d 2 s := by
  cases i <;> cases ho <;> cases hc <;> rfl

/-- Settles O37: a branch writes PC alone, and Relative mode reports no page cross. -/
theorem branchesFollowTheirFlag : Obligations.BranchesFollowTheirFlag :=
  fun _ _ _ _ ho hc => ⟨_, exec_of_branchCondition ho hc, rfl, rfl⟩

/-- Settles O49: each flag instruction is one write by the flag accessor. -/
theorem flagInstructionsWriteOneBit : Obligations.FlagInstructionsWriteOneBit := by
  intro s
  refine ⟨fun i f bit h => ?_, _, rfl, rfl⟩
  have hexec : exec i s = runSetFlag f bit 2 s := by
    refine (?_ : ∀ c ∈ _, exec c.1 s = runSetFlag c.2.1 c.2.2 2 s) _ h
    simp only [List.forall_mem_cons, List.not_mem_nil, false_imp_iff, implies_true, and_true]
    exact ⟨rfl, rfl, rfl, rfl, rfl, rfl, rfl⟩
  exact ⟨_, hexec, rfl, getFlag_setFlag_self s.p f bit, flagsKept_setFlag s.p f bit⟩

end Sys2Proof.Machine
end

section
/-! PROOF. The shifts in the integers (43_shift_rotate.md R191 to R194), and the instructions that write one cell at
their effective address: stores (41_load_store_transfer.md section 2), INC and DEC (42_logic_incdec.md section 2) and
the shifts in memory modes. -/

namespace Sys2Proof.Machine

open Sys2Proof.Claims

/-- A write at an address is read back there and nowhere else. -/
theorem State.writeByte_one_cell {s : State} (h : s.mem.wf = true) (a : Word) (v : Byte) :
    (s.writeByte a v).readByte a = v ∧ CellsKept [a] s (s.writeByte a v) := by
  constructor
  · rw [State.readByte_writeByte h, if_pos rfl]
  · intro b hb
    rw [State.readByte_writeByte h, if_neg (List.ne_of_not_mem_cons hb)]

theorem exec_store {i : Instr} {d : DataOperand} {v : Byte} {s : State}
    (hm : (i.mnemonic, v) ∈ [(Mnemonic.sta, s.a), (.stx, s.x), (.sty, s.y)]) (ho : i.operand = .data d) :
    ∃ base, exec i s = runStore v d base s := by
  simp only [List.mem_cons, Prod.mk.injEq, List.not_mem_nil, or_false] at hm
  obtain ⟨hm, rfl⟩ | ⟨hm, rfl⟩ | ⟨hm, rfl⟩ := hm
  · exact exec_sta hm ho s
  · exact exec_stx hm ho s
  · exact exec_sty hm ho s

/-- Settles O29: a store is one write of the register's byte. -/
theorem storesWriteOneCell : Obligations.StoresWriteOneCell := by
  intro i d v s h ho hm
  obtain ⟨base, hexec⟩ := exec_store hm ho
  exact ⟨_, hexec, rfl, State.writeByte_one_cell (s := s.beginStep base (.data d)) h _ _⟩

/-- Every instruction is a row of the table (30_encoding.md R107). -/
theorem mode_mem_modes (i : Instr) : i.mnemonic.modes.contains i.mode = true := by
  cases i <;> rfl

/-- The value of an operand is the byte at its effective address for a mnemonic with no Immediate mode. -/
theorem operandValue_eq_readByte {i : Instr} {d : DataOperand} (ho : i.operand = .data d)
    (hm : i.mnemonic.modes.contains .immediate = false) (s : State) :
    operandValue d s = s.readByte (effectiveAddress d s) := by
  have hmode : i.mnemonic.modes.contains d.mode = true := by
    have := mode_mem_modes i
    rwa [Instr.mode, ho] at this
  cases d with
  | immediate v => cases hm.symm.trans hmode
  | _ => rfl

theorem exec_addToMemory {i : Instr} {d : DataOperand} {k : Nat} (hm : (i.mnemonic, k) ∈ [(Mnemonic.inc, 1), (.dec, 255)])
    (ho : i.operand = .data d) (s : State) : ∃ base, exec i s = runAddToMemory (BitVec.ofNat 8 k) d base s := by
  simp only [List.mem_cons, Prod.mk.injEq, List.not_mem_nil, or_false] at hm
  obtain ⟨hm, rfl⟩ | ⟨hm, rfl⟩ := hm
  · exact exec_inc hm ho s
  · exact exec_dec hm ho s

/-- Settles O33: adding 255 is taking one away modulo 256. -/
theorem incAndDecChangeOneCell : Obligations.IncAndDecChangeOneCell := by
  intro i d k s h ho hm new
  have hmem : i.mnemonic ∈ [Mnemonic.inc, .dec] := mnemonic_mem hm (by simp)
  have hnot : i.mnemonic.modes.contains .immediate = false := by
    simp only [List.mem_cons, List.not_mem_nil, or_false] at hmem
    obtain h | h := hmem <;> rw [h] <;> rfl
  have hnew : operandValue d s + BitVec.ofNat 8 k = new := by
    apply BitVec.eq_of_toNat_eq
    rw [operandValue_eq_readByte ho hnot, BitVec.toNat_add, BitVec.toNat_ofNat, BitVec.toNat_ofNat]
    omega
  obtain ⟨base, hexec⟩ := exec_addToMemory hm ho s
  obtain ⟨hcell, hkept⟩ :=
    State.writeByte_one_cell (s := s.beginStep base (.data d)) h (effectiveAddress d s) (operandValue d s + BitVec.ofNat 8 k)
  refine ⟨_, hexec, rfl, hcell.trans hnew, hkept, ?_, ?_⟩
  · exact hnew ▸ nzOf_setNZ s.p (operandValue d s + BitVec.ofNat 8 k)
  · exact flagsKept_setNZ s.p _

/-- The four shifts by mnemonic. -/
def shifts : List (Mnemonic × (Byte → Bool → ShiftResult)) :=
  [(.asl, shiftAsl), (.lsr, shiftLsr), (.rol, shiftRol), (.ror, shiftRor)]

theorem getLsbD_seven (v : Byte) : v.getLsbD 7 = decide (128 ≤ v.toNat) := BitVec.msb_eq_decide v

theorem getLsbD_zero (v : Byte) : v.getLsbD 0 = decide (v.toNat % 2 = 1) := by
  rw [BitVec.getLsbD, Nat.testBit_zero]

theorem shiftAsl_eq (v : Byte) (c : Bool) :
    shiftAsl v c = ⟨BitVec.ofNat 8 (2 * v.toNat % 256), decide (128 ≤ v.toNat)⟩ := by
  rw [shiftAsl, getLsbD_seven]
  congr 1
  bv_omega

theorem shiftLsr_eq (v : Byte) (c : Bool) :
    shiftLsr v c = ⟨BitVec.ofNat 8 (v.toNat / 2), decide (v.toNat % 2 = 1)⟩ := by
  rw [shiftLsr, getLsbD_zero]
  congr 1
  bv_omega

/-- A byte moved left leaves bit 0 free for the old C. -/
theorem shiftLeft_and_carry (v : Byte) (c : Bool) : (v <<< 1) &&& (BitVec.ofBool c).setWidth 8 = 0#8 := by
  apply BitVec.eq_of_getLsbD_eq
  intro k hk
  simp only [BitVec.getLsbD_and, BitVec.getLsbD_shiftLeft, BitVec.getLsbD_setWidth, BitVec.getLsbD_ofBool,
    BitVec.getLsbD_zero]
  by_cases h0 : k = 0 <;> simp [h0]

/-- A byte moved right leaves bit 7 free for the old C. -/
theorem shiftRight_and_carry (v : Byte) (c : Bool) : (v >>> 1) &&& ((BitVec.ofBool c).setWidth 8 <<< 7) = 0#8 := by
  apply BitVec.eq_of_getLsbD_eq
  intro k hk
  simp only [BitVec.getLsbD_and, BitVec.getLsbD_ushiftRight, BitVec.getLsbD_shiftLeft, BitVec.getLsbD_zero]
  by_cases h7 : k < 7
  · simp [h7]
  · simp [BitVec.getLsbD_of_ge v (1 + k) (by omega)]

theorem shiftRol_eq (v : Byte) (c : Bool) :
    shiftRol v c = ⟨BitVec.ofNat 8 ((2 * v.toNat + c.toNat) % 256), decide (128 ≤ v.toNat)⟩ := by
  rw [shiftRol, getLsbD_seven, ← BitVec.add_eq_or_of_and_eq_zero _ _ (shiftLeft_and_carry v c)]
  congr 1
  cases c <;> simp <;> bv_omega

theorem shiftRor_eq (v : Byte) (c : Bool) :
    shiftRor v c = ⟨BitVec.ofNat 8 (v.toNat / 2 + 128 * c.toNat), decide (v.toNat % 2 = 1)⟩ := by
  rw [shiftRor, getLsbD_zero, ← BitVec.add_eq_or_of_and_eq_zero _ _ (shiftRight_and_carry v c)]
  congr 1
  cases c <;> simp <;> bv_omega

/-- The shift a mnemonic stands for, against its arithmetic description. -/
theorem exists_shift_of_shiftOf {m : Mnemonic} {v : Byte} {c c' : Bool} {r : Nat}
    (h : shiftOf m v.toNat c = some (r, c')) : ∃ f, (m, f) ∈ shifts ∧ f v c = ⟨BitVec.ofNat 8 r, c'⟩ := by
  cases m with
  | asl =>
    cases h
    exact ⟨shiftAsl, by simp [shifts], shiftAsl_eq v c⟩
  | lsr =>
    cases h
    exact ⟨shiftLsr, by simp [shifts], shiftLsr_eq v c⟩
  | rol =>
    cases h
    exact ⟨shiftRol, by simp [shifts], shiftRol_eq v c⟩
  | ror =>
    cases h
    exact ⟨shiftRor, by simp [shifts], shiftRor_eq v c⟩
  | _ => cases h

theorem exec_shiftA {i : Instr} {f : Byte → Bool → ShiftResult} (hf : (i.mnemonic, f) ∈ shifts)
    (ho : i.operand = .accumulator) (s : State) : exec i s = runShiftA f 2 s := by
  simp only [shifts, List.mem_cons, Prod.mk.injEq, List.not_mem_nil, or_false] at hf
  obtain ⟨hm, rfl⟩ | ⟨hm, rfl⟩ | ⟨hm, rfl⟩ | ⟨hm, rfl⟩ := hf <;> cases i <;> cases hm <;> cases ho <;> rfl

theorem exec_shiftMemory {i : Instr} {d : DataOperand} {f : Byte → Bool → ShiftResult}
    (hf : (i.mnemonic, f) ∈ shifts) (ho : i.operand = .data d) (s : State) :
    ∃ base, exec i s = runShiftMemory f d base s := by
  simp only [shifts, List.mem_cons, Prod.mk.injEq, List.not_mem_nil, or_false] at hf
  obtain ⟨hm, rfl⟩ | ⟨hm, rfl⟩ | ⟨hm, rfl⟩ | ⟨hm, rfl⟩ := hf
  · exact exec_asl_memory hm ho s
  · exact exec_lsr_memory hm ho s
  · exact exec_rol_memory hm ho s
  · exact exec_ror_memory hm ho s

theorem nzOf_shiftFlags (p : Byte) (r : ShiftResult) : NZOf r.result (shiftFlags p r) :=
  nzOf_setNZ (setFlag p .c r.carry) r.result

/-- Settles O35: in Accumulator mode the shifted byte goes to A. -/
theorem shiftsInAccumulatorModeChangeA : Obligations.ShiftsInAccumulatorModeChangeA := by
  intro i r c s ho hshift
  obtain ⟨f, hf, hresult⟩ := exists_shift_of_shiftOf hshift
  refine ⟨_, exec_shiftA hf ho s, ?_⟩
  rw [hresult]
  exact ⟨rfl, getFlag_shiftFlags s.p _ .c, nzOf_shiftFlags s.p _, flagsKept_shiftFlags s.p _⟩

/-- Settles O36: in a memory mode the shifted byte goes back to the cell it came from. -/
theorem shiftsInMemoryModesChangeOneCell : Obligations.ShiftsInMemoryModesChangeOneCell := by
  intro i d r c s h ho hshift
  obtain ⟨f, hf, hresult⟩ := exists_shift_of_shiftOf hshift
  have hmem : i.mnemonic ∈ [Mnemonic.asl, .lsr, .rol, .ror] := mnemonic_mem hf (by simp [shifts])
  have hnot : i.mnemonic.modes.contains .immediate = false := by
    simp only [List.mem_cons, List.not_mem_nil, or_false] at hmem
    obtain h | h | h | h := hmem <;> rw [h] <;> rfl
  rw [← operandValue_eq_readByte ho hnot] at hresult
  obtain ⟨base, hexec⟩ := exec_shiftMemory hf ho s
  obtain ⟨hcell, hkept⟩ :=
    State.writeByte_one_cell (s := s.beginStep base (.data d)) h (effectiveAddress d s) (BitVec.ofNat 8 r)
  refine ⟨_, hexec, ?_⟩
  rw [hresult]
  exact ⟨rfl, hcell, hkept, getFlag_shiftFlags s.p _ .c, nzOf_shiftFlags s.p _, flagsKept_shiftFlags s.p _⟩

end Sys2Proof.Machine
end

section
/-! PROOF. Noninterference of U, B, D and I (10_state.md section 3, the column "read by"; 92_eei_decisions.md D3, D14):
every meaning but those of PHP and BRK reads no flag of P but N, V, Z and C, and computes each flag of the new P from
that same flag of the old one. -/

namespace Sys2Proof.Machine

open Sys2Proof.Claims

/-- Each flag of the new P depends on that flag of the old P alone. -/
def Flagwise (F : Byte → Byte) : Prop := ∀ p q g, getFlag p g = getFlag q g → getFlag (F p) g = getFlag (F q) g

theorem flagwise_id : Flagwise fun p => p := fun _ _ _ h => h

theorem flagwise_const (b : Byte) : Flagwise fun _ => b := fun _ _ _ _ => rfl

theorem flagwise_setFlag (f : Flag) (bit : Bool) : Flagwise (setFlag · f bit) := by
  intro p q g h
  simp only [getFlag_setFlag, h]

theorem Flagwise.comp {F G : Byte → Byte} (hF : Flagwise F) (hG : Flagwise G) : Flagwise fun p => F (G p) :=
  fun p q g h => hF _ _ g (hG p q g h)

theorem flagwise_setNZ (v : Byte) : Flagwise (setNZ · v) :=
  (flagwise_setFlag .n v.msb).comp (flagwise_setFlag .z (v == 0))

theorem flagwise_addFlags (r : AddResult) : Flagwise (addFlags · r) :=
  (flagwise_setNZ r.result).comp ((flagwise_setFlag .v r.overflow).comp (flagwise_setFlag .c r.carry))

theorem flagwise_shiftFlags (r : ShiftResult) : Flagwise (shiftFlags · r) :=
  (flagwise_setNZ r.result).comp (flagwise_setFlag .c r.carry)

theorem flagwise_compareFlags (reg val : Byte) : Flagwise (compareFlags · reg val) :=
  flagwise_shiftFlags ⟨(addCore reg (val ^^^ 0xFF) true).result, (addCore reg (val ^^^ 0xFF) true).carry⟩

theorem flagwise_bitFlags (a val : Byte) : Flagwise (bitFlags · a val) :=
  (flagwise_setFlag .v _).comp ((flagwise_setFlag .n _).comp (flagwise_setFlag .z _))

/-- The two bytes agree on the flags that branches and arithmetic read. -/
def AgreeOnReadFlags (p q : Byte) : Prop := ∀ g ∈ [Flag.n, .v, .z, .c], getFlag q g = getFlag p g

theorem AgreeOnReadFlags.carry {p q : Byte} (h : AgreeOnReadFlags p q) : getFlag q .c = getFlag p .c :=
  h .c (by decide)

/-- Writing a flag nobody reads keeps the flags somebody reads. -/
theorem agreeOnReadFlags_setFlag {f : Flag} (hf : f ∈ [Flag.u, .b, .d, .i]) (p : Byte) (bit : Bool) :
    AgreeOnReadFlags p (setFlag p f bit) := by
  have hne : ∀ f ∈ [Flag.u, .b, .d, .i], ∀ g ∈ [Flag.n, .v, .z, .c], g ≠ f := by decide
  exact fun g hg => getFlag_setFlag_ne p (hne f hf g hg) bit

/-- The next state sees P only through the flags that are read, but for the new P, which is flagwise. -/
def SeesReadFlagsOnly (m : State → Host.Outcome State Fault Refusal) : Prop :=
  ∀ s : State, ∃ (t : State) (F : Byte → Byte), Flagwise F ∧ ∀ q, AgreeOnReadFlags s.p q → m (s.setP q) = .next (t.setP (F q))

@[simp] theorem operandValue_setP (d : DataOperand) (s : State) (q : Byte) :
    operandValue d (s.setP q) = operandValue d s := by
  cases d <;> rfl

@[simp] theorem effectiveAddress_setP (d : DataOperand) (s : State) (q : Byte) :
    effectiveAddress d (s.setP q) = effectiveAddress d s := by
  cases d <;> rfl

theorem stepCycles_setP (base : Nat) (o : Operand) (s : State) (q : Byte) :
    stepCycles base o (s.setP q) = stepCycles base o s := by
  cases o with
  | data d => cases d <;> rfl
  | _ => rfl

@[simp] theorem State.beginStep_setP (s : State) (base : Nat) (o : Operand) (q : Byte) :
    (s.setP q).beginStep base o = (s.beginStep base o).setP q := by
  rw [State.beginStep, stepCycles_setP]
  rfl

section Shapes

variable (d : DataOperand) (base : Nat)

theorem seesReadFlagsOnly_runAdc : SeesReadFlagsOnly (runAdc d base) := by
  intro s
  let r := addCore s.a (operandValue d s) (getFlag s.p .c)
  refine ⟨((s.beginStep base (.data d)).setA r.result).advanceOver (.data d), _, flagwise_addFlags r, fun q hq => ?_⟩
  simp only [runAdc, State.setP_a, State.setP_p, operandValue_setP, State.beginStep_setP, hq.carry]
  rfl

theorem seesReadFlagsOnly_runSbc : SeesReadFlagsOnly (runSbc d base) := by
  intro s
  let r := addCore s.a (operandValue d s ^^^ 0xFF) (getFlag s.p .c)
  refine ⟨((s.beginStep base (.data d)).setA r.result).advanceOver (.data d), _, flagwise_addFlags r, fun q hq => ?_⟩
  simp only [runSbc, State.setP_a, State.setP_p, operandValue_setP, State.beginStep_setP, hq.carry]
  rfl

theorem seesReadFlagsOnly_runLda : SeesReadFlagsOnly (runLda d base) := by
  intro s
  refine ⟨((s.beginStep base (.data d)).setA (operandValue d s)).advanceOver (.data d), _,
    flagwise_setNZ (operandValue d s), fun q _ => ?_⟩
  simp only [runLda, State.setP_p, operandValue_setP, State.beginStep_setP]
  rfl

theorem seesReadFlagsOnly_runLdx : SeesReadFlagsOnly (runLdx d base) := by
  intro s
  refine ⟨((s.beginStep base (.data d)).setX (operandValue d s)).advanceOver (.data d), _,
    flagwise_setNZ (operandValue d s), fun q _ => ?_⟩
  simp only [runLdx, State.setP_p, operandValue_setP, State.beginStep_setP]
  rfl

theorem seesReadFlagsOnly_runLdy : SeesReadFlagsOnly (runLdy d base) := by
  intro s
  refine ⟨((s.beginStep base (.data d)).setY (operandValue d s)).advanceOver (.data d), _,
    flagwise_setNZ (operandValue d s), fun q _ => ?_⟩
  simp only [runLdy, State.setP_p, operandValue_setP, State.beginStep_setP]
  rfl

theorem seesReadFlagsOnly_runLogic (f : Byte → Byte → Byte) : SeesReadFlagsOnly (runLogic f d base) := by
  intro s
  refine ⟨((s.beginStep base (.data d)).setA (f s.a (operandValue d s))).advanceOver (.data d), _,
    flagwise_setNZ (f s.a (operandValue d s)), fun q _ => ?_⟩
  simp only [runLogic, State.setP_a, State.setP_p, operandValue_setP, State.beginStep_setP]
  rfl

theorem seesReadFlagsOnly_runBit : SeesReadFlagsOnly (runBit d base) := by
  intro s
  refine ⟨(s.beginStep base (.data d)).advanceOver (.data d), _, flagwise_bitFlags s.a (operandValue d s),
    fun q _ => ?_⟩
  simp only [runBit, State.setP_a, State.setP_p, operandValue_setP, State.beginStep_setP]
  rfl

theorem seesReadFlagsOnly_runAddToMemory (v : Byte) : SeesReadFlagsOnly (runAddToMemory v d base) := by
  intro s
  refine ⟨((s.beginStep base (.data d)).writeByte (effectiveAddress d s) (operandValue d s + v)).advanceOver
    (.data d), _, flagwise_setNZ (operandValue d s + v), fun q _ => ?_⟩
  simp only [runAddToMemory, State.setP_p, operandValue_setP, effectiveAddress_setP, State.beginStep_setP]
  rfl

theorem seesReadFlagsOnly_runShiftMemory (f : Byte → Bool → ShiftResult) :
    SeesReadFlagsOnly (runShiftMemory f d base) := by
  intro s
  let r := f (operandValue d s) (getFlag s.p .c)
  refine ⟨((s.beginStep base (.data d)).writeByte (effectiveAddress d s) r.result).advanceOver (.data d), _,
    flagwise_shiftFlags r, fun q hq => ?_⟩
  simp only [runShiftMemory, State.setP_p, operandValue_setP, effectiveAddress_setP, State.beginStep_setP, hq.carry]
  rfl

theorem seesReadFlagsOnly_runShiftA (f : Byte → Bool → ShiftResult) : SeesReadFlagsOnly (runShiftA f base) := by
  intro s
  let r := f s.a (getFlag s.p .c)
  refine ⟨((s.beginStep base .accumulator).setA r.result).advanceOver .accumulator, _, flagwise_shiftFlags r,
    fun q hq => ?_⟩
  simp only [runShiftA, State.setP_a, State.setP_p, State.beginStep_setP, hq.carry]
  rfl

/-- A register other than P, read from the state. -/
def IgnoresP (reg : State → Byte) : Prop := ∀ s q, reg (s.setP q) = reg s

theorem seesReadFlagsOnly_runStore {reg : State → Byte} (hreg : IgnoresP reg) :
    SeesReadFlagsOnly fun s => runStore (reg s) d base s := by
  intro s
  refine ⟨((s.beginStep base (.data d)).writeByte (effectiveAddress d s) (reg s)).advanceOver (.data d), _,
    flagwise_id, fun q _ => ?_⟩
  simp only [runStore, hreg s q, effectiveAddress_setP, State.beginStep_setP]
  rfl

theorem seesReadFlagsOnly_runCompare {reg : State → Byte} (hreg : IgnoresP reg) :
    SeesReadFlagsOnly fun s => runCompare (reg s) d base s := by
  intro s
  refine ⟨(s.beginStep base (.data d)).advanceOver (.data d), _, flagwise_compareFlags (reg s) (operandValue d s),
    fun q _ => ?_⟩
  simp only [runCompare, hreg s q, State.setP_p, operandValue_setP, State.beginStep_setP]
  rfl

end Shapes

theorem seesReadFlagsOnly_runBranch (cond : Bool → Bool) {g : Flag} (hg : g ∈ [Flag.n, .v, .z, .c]) (d : Byte) :
    SeesReadFlagsOnly fun s => runBranch (cond (getFlag s.p g)) d 2 s := by
  intro s
  refine ⟨(s.beginStep 2 (.relative d)).setPc (if cond (getFlag s.p g) then relativeTarget d s else s.pc + 2), _,
    flagwise_id, fun q hq => ?_⟩
  simp only [runBranch, State.setP_p, hq g hg, State.beginStep_setP]
  rfl

theorem seesReadFlagsOnly_runSetFlag (f : Flag) (bit : Bool) : SeesReadFlagsOnly (runSetFlag f bit 2) :=
  fun s => ⟨(s.beginStep 2 .implied).advanceOver .implied, _, flagwise_setFlag f bit, fun _ _ => rfl⟩

/-- The new P is the old one with Z and N of a byte. -/
theorem seesReadFlagsOnly_of_setNZ {m : State → Host.Outcome State Fault Refusal} (next : State → State)
    (v : State → Byte) (h : ∀ s q, m (s.setP q) = .next ((next s).setP (setNZ q (v s)))) : SeesReadFlagsOnly m :=
  fun s => ⟨next s, _, flagwise_setNZ (v s), fun q _ => h s q⟩

/-- P is not touched. -/
theorem seesReadFlagsOnly_of_keeps_p {m : State → Host.Outcome State Fault Refusal} (next : State → State)
    (h : ∀ s q, m (s.setP q) = .next ((next s).setP q)) : SeesReadFlagsOnly m :=
  fun s => ⟨next s, _, flagwise_id, fun q _ => h s q⟩

/-- The new P does not depend on the old one. -/
theorem seesReadFlagsOnly_of_sets_p {m : State → Host.Outcome State Fault Refusal} (next : State → State)
    (h : ∀ s q, m (s.setP q) = .next (next s)) : SeesReadFlagsOnly m :=
  fun s => ⟨next s, _, flagwise_const (next s).p, fun q _ => h s q⟩

theorem exec_register_seesReadFlagsOnly {i : Instr}
    (hi : i ∈ [Instr.tax, .tay, .txa, .tya, .tsx, .inx, .iny, .dex, .dey]) : SeesReadFlagsOnly (exec i) := by
  simp only [List.mem_cons, List.not_mem_nil, or_false] at hi
  obtain rfl | rfl | rfl | rfl | rfl | rfl | rfl | rfl | rfl := hi
  · exact seesReadFlagsOnly_of_setNZ (fun s => ((s.beginStep 2 .implied).setX s.a).advanceOver .implied) State.a
      fun _ _ => rfl
  · exact seesReadFlagsOnly_of_setNZ (fun s => ((s.beginStep 2 .implied).setY s.a).advanceOver .implied) State.a
      fun _ _ => rfl
  · exact seesReadFlagsOnly_of_setNZ (fun s => ((s.beginStep 2 .implied).setA s.x).advanceOver .implied) State.x
      fun _ _ => rfl
  · exact seesReadFlagsOnly_of_setNZ (fun s => ((s.beginStep 2 .implied).setA s.y).advanceOver .implied) State.y
      fun _ _ => rfl
  · exact seesReadFlagsOnly_of_setNZ (fun s => ((s.beginStep 2 .implied).setX s.sp).advanceOver .implied) State.sp
      fun _ _ => rfl
  · exact seesReadFlagsOnly_of_setNZ (fun s => ((s.beginStep 2 .implied).setX (s.x + 1)).advanceOver .implied) (·.x + 1)
      fun _ _ => rfl
  · exact seesReadFlagsOnly_of_setNZ (fun s => ((s.beginStep 2 .implied).setY (s.y + 1)).advanceOver .implied) (·.y + 1)
      fun _ _ => rfl
  · exact seesReadFlagsOnly_of_setNZ (fun s => ((s.beginStep 2 .implied).setX (s.x - 1)).advanceOver .implied) (·.x - 1)
      fun _ _ => rfl
  · exact seesReadFlagsOnly_of_setNZ (fun s => ((s.beginStep 2 .implied).setY (s.y - 1)).advanceOver .implied) (·.y - 1)
      fun _ _ => rfl

theorem State.pushWord_setP (s : State) (q : Byte) (w : Word) : (s.setP q).pushWord w = (s.pushWord w).setP q := rfl

theorem exec_jsr_seesReadFlagsOnly (w : Word) : SeesReadFlagsOnly (exec (.jsr w)) := by
  refine seesReadFlagsOnly_of_keeps_p
    (fun s => ((s.beginStep 6 (.data (.absolute w))).pushWord (s.pc + 2)).setPc w) fun s q => ?_
  rw [exec_jsr, State.beginStep_setP, State.pushWord_setP]
  rfl

theorem exec_seesReadFlagsOnly {i : Instr} (hphp : i ≠ .php) (hbrk : i ≠ .brk) : SeesReadFlagsOnly (exec i) := by
  have shape : ∀ {m}, SeesReadFlagsOnly m → (∀ s, exec i s = m s) → SeesReadFlagsOnly (exec i) :=
    fun hm h => (funext h : exec i = _) ▸ hm
  cases i with
  | adcImm _ | adcZp _ | adcZpx _ | adcAbs _ | adcAbx _ | adcAby _ | adcIzx _ | adcIzy _ =>
    exact shape (seesReadFlagsOnly_runAdc _ _) fun _ => rfl
  | sbcImm _ | sbcZp _ | sbcZpx _ | sbcAbs _ | sbcAbx _ | sbcAby _ | sbcIzx _ | sbcIzy _ =>
    exact shape (seesReadFlagsOnly_runSbc _ _) fun _ => rfl
  | ldaImm _ | ldaZp _ | ldaZpx _ | ldaAbs _ | ldaAbx _ | ldaAby _ | ldaIzx _ | ldaIzy _ =>
    exact shape (seesReadFlagsOnly_runLda _ _) fun _ => rfl
  | ldxImm _ | ldxZp _ | ldxZpy _ | ldxAbs _ | ldxAby _ => exact shape (seesReadFlagsOnly_runLdx _ _) fun _ => rfl
  | ldyImm _ | ldyZp _ | ldyZpx _ | ldyAbs _ | ldyAbx _ => exact shape (seesReadFlagsOnly_runLdy _ _) fun _ => rfl
  | staZp _ | staZpx _ | staAbs _ | staAbx _ | staAby _ | staIzx _ | staIzy _ =>
    exact shape (seesReadFlagsOnly_runStore _ _ (reg := State.a) fun _ _ => rfl) fun _ => rfl
  | stxZp _ | stxZpy _ | stxAbs _ =>
    exact shape (seesReadFlagsOnly_runStore _ _ (reg := State.x) fun _ _ => rfl) fun _ => rfl
  | styZp _ | styZpx _ | styAbs _ =>
    exact shape (seesReadFlagsOnly_runStore _ _ (reg := State.y) fun _ _ => rfl) fun _ => rfl
  | andImm _ | andZp _ | andZpx _ | andAbs _ | andAbx _ | andAby _ | andIzx _ | andIzy _
  | oraImm _ | oraZp _ | oraZpx _ | oraAbs _ | oraAbx _ | oraAby _ | oraIzx _ | oraIzy _
  | eorImm _ | eorZp _ | eorZpx _ | eorAbs _ | eorAbx _ | eorAby _ | eorIzx _ | eorIzy _ =>
    exact shape (seesReadFlagsOnly_runLogic _ _ _) fun _ => rfl
  | bitZp _ | bitAbs _ => exact shape (seesReadFlagsOnly_runBit _ _) fun _ => rfl
  | incZp _ | incZpx _ | incAbs _ | incAbx _ | decZp _ | decZpx _ | decAbs _ | decAbx _ =>
    exact shape (seesReadFlagsOnly_runAddToMemory _ _ _) fun _ => rfl
  | aslAcc | lsrAcc | rolAcc | rorAcc => exact shape (seesReadFlagsOnly_runShiftA _ _) fun _ => rfl
  | aslZp _ | aslZpx _ | aslAbs _ | aslAbx _ | lsrZp _ | lsrZpx _ | lsrAbs _ | lsrAbx _
  | rolZp _ | rolZpx _ | rolAbs _ | rolAbx _ | rorZp _ | rorZpx _ | rorAbs _ | rorAbx _ =>
    exact shape (seesReadFlagsOnly_runShiftMemory _ _ _) fun _ => rfl
  | cmpImm _ | cmpZp _ | cmpZpx _ | cmpAbs _ | cmpAbx _ | cmpAby _ | cmpIzx _ | cmpIzy _ =>
    exact shape (seesReadFlagsOnly_runCompare _ _ (reg := State.a) fun _ _ => rfl) fun _ => rfl
  | cpxImm _ | cpxZp _ | cpxAbs _ =>
    exact shape (seesReadFlagsOnly_runCompare _ _ (reg := State.x) fun _ _ => rfl) fun _ => rfl
  | cpyImm _ | cpyZp _ | cpyAbs _ =>
    exact shape (seesReadFlagsOnly_runCompare _ _ (reg := State.y) fun _ _ => rfl) fun _ => rfl
  | bcc _ => exact shape (seesReadFlagsOnly_runBranch not (g := .c) (by decide) _) fun _ => rfl
  | bcs _ => exact shape (seesReadFlagsOnly_runBranch id (g := .c) (by decide) _) fun _ => rfl
  | bne _ => exact shape (seesReadFlagsOnly_runBranch not (g := .z) (by decide) _) fun _ => rfl
  | beq _ => exact shape (seesReadFlagsOnly_runBranch id (g := .z) (by decide) _) fun _ => rfl
  | bpl _ => exact shape (seesReadFlagsOnly_runBranch not (g := .n) (by decide) _) fun _ => rfl
  | bmi _ => exact shape (seesReadFlagsOnly_runBranch id (g := .n) (by decide) _) fun _ => rfl
  | bvc _ => exact shape (seesReadFlagsOnly_runBranch not (g := .v) (by decide) _) fun _ => rfl
  | bvs _ => exact shape (seesReadFlagsOnly_runBranch id (g := .v) (by decide) _) fun _ => rfl
  | clc | sec | cli | sei | cld | sed | clv => exact shape (seesReadFlagsOnly_runSetFlag _ _) fun _ => rfl
  | tax | tay | txa | tya | tsx | inx | iny | dex | dey => exact exec_register_seesReadFlagsOnly (by decide)
  | pla =>
    exact seesReadFlagsOnly_of_setNZ (fun s => ((s.beginStep 4 .implied).pop.2.setA s.pop.1).advanceOver .implied)
      (·.pop.1) fun _ _ => rfl
  | plp =>
    exact seesReadFlagsOnly_of_sets_p
      (fun s => ((s.beginStep 4 .implied).pop.2.setP (restoreFromPull s.pop.1)).advanceOver .implied) fun _ _ => rfl
  | rti =>
    exact seesReadFlagsOnly_of_sets_p (fun s => (s.beginStep 6 .implied).returnFromInterrupt) fun _ _ => rfl
  | rts =>
    exact seesReadFlagsOnly_of_keeps_p
      (fun s => (s.beginStep 6 .implied).popWord.2.setPc (s.popWord.1 + 1)) fun _ _ => rfl
  | txs =>
    exact seesReadFlagsOnly_of_keeps_p
      (fun s => ((s.beginStep 2 .implied).setSp s.x).advanceOver .implied) fun _ _ => rfl
  | nop =>
    exact seesReadFlagsOnly_of_keeps_p (fun s => (s.beginStep 2 .implied).advanceOver .implied) fun _ _ => rfl
  | pha =>
    exact seesReadFlagsOnly_of_keeps_p
      (fun s => ((s.beginStep 3 .implied).push s.a).advanceOver .implied) fun _ _ => rfl
  | jsr w => exact exec_jsr_seesReadFlagsOnly w
  | jmpAbs w =>
    exact seesReadFlagsOnly_of_keeps_p (fun s => (s.beginStep 3 (.data (.absolute w))).setPc w) fun _ _ => rfl
  | jmpInd w =>
    exact seesReadFlagsOnly_of_keeps_p (fun s => (s.beginStep 5 (.indirect w)).setPc (indirectTarget w s))
      fun _ _ => rfl
  | php => exact absurd rfl hphp
  | brk => exact absurd rfl hbrk

/-- Settles O54: the flag written before agrees with the old P on all that is read, and the new P is flagwise. -/
theorem unreadFlagsDoNotInfluence : Obligations.UnreadFlagsDoNotInfluence := by
  intro i s t f bit hf hphp hbrk h
  obtain ⟨u, F, hF, hm⟩ := exec_seesReadFlagsOnly hphp hbrk s
  obtain rfl : u.setP (F s.p) = t := by
    have hsame : exec i s = .next (u.setP (F s.p)) := hm s.p fun _ _ => rfl
    exact Host.Outcome.next.inj (hsame.symm.trans h)
  refine ⟨_, hm _ (agreeOnReadFlags_setFlag hf s.p bit), rfl, fun g hg => ?_⟩
  exact hF _ _ g (getFlag_setFlag_ne s.p (List.ne_of_not_mem_cons hg) bit)

end Sys2Proof.Machine
end
